-- ==== Sys2Proof/Word.lean ====
section
/-! DEFINITION. The number and bit-sequence types of KWF (spec/00_scope.md R7, R10, R12; spec/30_encoding.md R70). -/
namespace Sys2Proof

/-- A timestamp or an interval: TW = 32 bits, microseconds (R7, R12). -/
abbrev Word := BitVec 32

/-- A command byte, a second keypad byte or a zone bitmap. -/
abbrev Byte := BitVec 8

/-- An event word `E[35:0]` (R70). -/
abbrev EventWord := BitVec 36

/-- A bit sequence: position 0 is the bit sampled first (R10, R52). -/
abbrev Bits := List Bool

/-- The two bus roles (R15): a rising edge feeds `panel`, a falling edge `keypad`. -/
inductive Role where
  | panel
  | keypad
deriving DecidableEq, Repr

/-- The data of the error `IndexOutOfRange(off, k, len)` of rule R100. -/
structure IndexOutOfRange where
  off : Nat
  k   : Nat
  len : Nat
deriving DecidableEq, Repr

end Sys2Proof
end

