-- ==== Sys2Proof/Config.lean ====
section
/-! DEFINITION. The parameters of spec/00_scope.md R7: the values fixed for this hardware as constants, the OPEN ones (and the two the spec keeps as parameters) as fields of `Config`. The test configuration TC of spec/92_eei_decisions.md D39. -/
namespace Sys2Proof

/-- `MAX_BITS`, the capacity of every bit sequence (R7, D8). -/
def maxBits : Nat := 200

/-- `MIN_PANEL_BITS`, the shortest panel word (R7). -/
def minPanelBits : Nat := 8

/-- `STATUS_WINDOW` in microseconds (R7). -/
def statusWindow : Nat := 500000

/-- `USER_SHIFT` (R7, D23). -/
def userShift : Int := 1

/-- `SYS_CODE_LIMIT` (R7). -/
def sysCodeLimit : Int := 34

/-- `SYS_CODE_DELTA` (R7, D23). -/
def sysCodeDelta : Int := 5

/-- The 20 button identities (spec/10_state.md R48). -/
inductive ButtonId where
  | digit0 | digit1 | digit2 | digit3 | digit4 | digit5 | digit6 | digit7 | digit8 | digit9
  | star | hash | stay | away | chime | resetKey | exit | left | right | echo
deriving DecidableEq, Repr

/-- A configuration: every parameter of R7 that is OPEN, and the two that the spec fixes for this hardware but keeps
as parameters (`checksumStrict`, `ckDataOffset`: D18, D19). No transaction writes one (R41). -/
structure Config where
  /-- `T_BOUNDARY` (microseconds). -/
  tBoundary : Nat
  /-- `M_CAPTURE` (GUARD_MARGIN). -/
  mCapture : Nat
  /-- `M_FRAMER`. -/
  mFramer : Nat
  /-- `CHECKSUM_STRICT`, false for this hardware. -/
  checksumStrict : Bool := false
  /-- `CK_DATA_OFFSET`, 8 for this hardware. -/
  ckDataOffset : Nat := 8
  stOffReady : Nat
  stOffError : Nat
  stOffBypass : Nat
  stOffMemory : Nat
  stOffArmed : Nat
  stOffProgram : Nat
  stOffPowerFail : Nat
  dtY1Off : Nat
  dtY1W : Nat
  dtY2Off : Nat
  dtY2W : Nat
  dtMonOff : Nat
  dtMonW : Nat
  dtDayOff : Nat
  dtDayW : Nat
  dtHourOff : Nat
  dtHourW : Nat
  dtMinOff : Nat
  dtMinW : Nat
  dtArmOff : Nat
  dtUserOff : Nat
  dtMasterOff : Nat
  /-- `ARM_STATE_ARMED`, in 0..3 by its type (R8). -/
  armStateArmed : BitVec 2
  /-- `ARM_USER_OFFSET`, a natural number. -/
  armUserOffset : Nat
  zoneOff27 : Nat
  zoneOff2D : Nat
  zoneOff34 : Nat
  zoneOff3E : Nat
  kpByte2Off : Nat
  /-- The OPEN entries of `KP_BUTTON_TABLE` (R85): the first entry of a byte counts, and the four bytes that R85
  fixes are looked up before this list (Machine/Operands.lean). -/
  kpButtons : List (Byte × ButtonId)
  /-- `KP_CODE_FIRE`, a byte by its type (R8). -/
  kpCodeFire : Byte
  /-- `KP_CODE_AUX`. -/
  kpCodeAux : Byte
  /-- `KP_CODE_PANIC`. -/
  kpCodePanic : Byte
  /-- `LABEL_TEXT` (R7, D27): informative only, no rule reads it. -/
  labelText : List (Byte × String) := []
deriving DecidableEq, Repr

/-- The test configuration TC of D39 and of spec/95_test_vectors.md section 0. Its values are NOT the hardware's. -/
def Config.testConfig : Config where
  tBoundary := 3000
  mCapture := 200
  mFramer := 200
  stOffReady := 9
  stOffError := 10
  stOffBypass := 11
  stOffMemory := 12
  stOffArmed := 13
  stOffProgram := 14
  stOffPowerFail := 20
  dtY1Off := 8
  dtY1W := 8
  dtY2Off := 16
  dtY2W := 8
  dtMonOff := 24
  dtMonW := 4
  dtDayOff := 28
  dtDayW := 5
  dtHourOff := 33
  dtHourW := 5
  dtMinOff := 38
  dtMinW := 6
  dtArmOff := 44
  dtUserOff := 47
  dtMasterOff := 46
  armStateArmed := 2
  armUserOffset := 10
  zoneOff27 := 9
  zoneOff2D := 9
  zoneOff34 := 9
  zoneOff3E := 9
  kpByte2Off := 8
  kpButtons := []
  kpCodeFire := 0xbb
  kpCodeAux := 0xdd
  kpCodePanic := 0xee

end Sys2Proof
end

