-- ==== Sys2Proof/Machine/BitField.lean ====
section
/-! DEFINITION. BitField and ChecksumValidator: the pure functions of spec/40_bitfield_checksum.md (R100 to R105), and the two bit helpers the encodings use. -/
namespace Sys2Proof.Machine

/-- The unsigned number a bit string denotes, most significant bit first: the shift-and-or of R100. -/
def fieldValue (bs : Bits) : Nat := bs.foldl (fun v b => 2 * v + b.toNat) 0

/-- The value of the `k` bits at `off .. off+k-1`. It is meaningful in range only; `extract` is the checked form. -/
def fieldAt (s : Bits) (off k : Nat) : Nat := fieldValue ((s.drop off).take k)

/-- `inRange(s, off, k)` (R102). -/
def inRange (s : Bits) (off k : Nat) : Bool := decide (off + k ≤ s.length)

/-- `extract(s, off, k)` (R100): raises `IndexOutOfRange` beyond the sequence. -/
def extract (s : Bits) (off k : Nat) : Except IndexOutOfRange Nat :=
  if inRange s off k then .ok (fieldAt s off k) else .error ⟨off, k, s.length⟩

/-- The word holds a 0 bit, so it is not idle noise (R82, R200). -/
def hasZero (w : Bits) : Bool := w.any (fun b => !b)

/-- The eight bits of a byte in sampling order, most significant first (R52). -/
def byteBits (b : Byte) : Bits :=
  [b.getLsbD 7, b.getLsbD 6, b.getLsbD 5, b.getLsbD 4, b.getLsbD 3, b.getLsbD 2, b.getLsbD 1, b.getLsbD 0]

/-- The number `N` of full groups after the header (R103). -/
def checksumGroups (ckOff : Nat) (s : Bits) : Nat := (s.length - ckOff) / 8

/-- Group `i` of R103; in range for `i < checksumGroups`. -/
def checksumGroup (ckOff : Nat) (s : Bits) (i : Nat) : Nat := fieldAt s (ckOff + 8 * i) 8

/-- The header plus the first `m` groups (R103). -/
def checksumSum (ckOff : Nat) (s : Bits) (m : Nat) : Nat :=
  fieldAt s 0 8 + ((List.range m).map (checksumGroup ckOff s)).sum

/-- `validate(s)` (R103): too short is false; the bits after the last full group take no part (R104). -/
def validate (ckOff : Nat) (s : Bits) : Bool :=
  if s.length ≤ 8 then false
  else if checksumGroups ckOff s < 1 then false
  else checksumSum ckOff s (checksumGroups ckOff s - 1) % 256 == checksumGroup ckOff s (checksumGroups ckOff s - 1)

end Sys2Proof.Machine
end

