-- ==== Sys2Proof/Syntax.lean ====
section
/-! DEFINITION. The instructions: one constructor for each of the 27 rows of spec/opcode_table.json. -/
namespace Sys2Proof

/-- The event kinds (the transactions a step performs, spec/00_scope.md R14) and the panel and keypad command words
(executed inside a POLL that passes its guard, spec/42_framer.md R140). In a word's constructor, `tail` is the word
after its command byte, `now` and `a` are the time and TSYNC's answer of the POLL that decodes it. -/
inductive Instr where
  /-- `EDGE(1, d, now)` (R122). -/
  | rise (d : Bool) (now : Word)
  /-- `EDGE(0, d, now)` (R123). -/
  | fall (d : Bool) (now : Word)
  /-- `POLL(now)` with TSYNC's answer `a` (R140). -/
  | poll (a : Bool) (now : Word)
  /-- `ARM(v)` (R126). -/
  | arm (v : Bool)
  /-- `RESET` (R250). -/
  | reset
  /-- Panel code 0x00 (R162). -/
  | pNull (tail : Bits)
  /-- Panel code 0x05 (R166). -/
  | pStatus (tail : Bits) (now : Word)
  /-- Panel code 0xa5 (R168). -/
  | pDatetime (tail : Bits) (now : Word) (a : Bool)
  /-- Panel code 0x27 (R170). -/
  | pZoneA (tail : Bits) (now : Word)
  /-- Panel code 0x2d (R171). -/
  | pZoneB (tail : Bits) (now : Word)
  /-- Panel code 0x34 (R172). -/
  | pZoneC (tail : Bits) (now : Word)
  /-- Panel code 0x3e (R173). -/
  | pZoneD (tail : Bits) (now : Word)
  /-- Panel code 0x11 (R174). -/
  | pLabel11 (tail : Bits) (now : Word)
  /-- Panel code 0x0a (R175). -/
  | pLabel0A (tail : Bits) (now : Word)
  /-- Panel code 0x5d (R176). -/
  | pLabel5D (tail : Bits) (now : Word)
  /-- Panel code 0x63 (R177). -/
  | pLabel63 (tail : Bits) (now : Word)
  /-- Panel code 0x64 (R178). -/
  | pLabel64 (tail : Bits) (now : Word)
  /-- Panel code 0x69 (R179). -/
  | pLabel69 (tail : Bits) (now : Word)
  /-- Panel code 0x39 (R180). -/
  | pLabel39 (tail : Bits) (now : Word)
  /-- Panel code 0xb1 (R181). -/
  | pLabelB1 (tail : Bits) (now : Word)
  /-- Any other panel code, 241 values (R182). -/
  | pRaw (code : Byte) (tail : Bits) (now : Word)
  /-- A keypad word of `n` ones and no zero (R200). -/
  | kNoise (n : Nat)
  /-- Keypad code 0xff (R204). -/
  | kButton (tail : Bits) (now : Word)
  /-- Keypad code `KP_CODE_FIRE` (R205). -/
  | kFire (tail : Bits) (now : Word)
  /-- Keypad code `KP_CODE_AUX` (R206). -/
  | kAux (tail : Bits) (now : Word)
  /-- Keypad code `KP_CODE_PANIC` (R207). -/
  | kPanic (tail : Bits) (now : Word)
  /-- Any other keypad word that is not noise, the whole of it (R208); a word shorter than its command byte too. -/
  | kOther (w : Bits) (now : Word)
deriving DecidableEq, Repr

end Sys2Proof
end

