-- ==== Sys2Proof/Machine/State.lean ====
section
/-! DEFINITION. The state of KWF: every register of spec/10_state.md (R22 to R36, R46, R47), the value types they hold, the input ports (R39), the reasons a step can stop, and the state after reset (R43). -/
namespace Sys2Proof.Machine

/-- Decode status codes (spec/60_exceptions.md R221). Codes 8 to 15 are never produced, and have no constructor. -/
inductive DStat where
  | none | ok | unknownCommand | duplicate | nullCommand | noise | checksumMismatch | indexOutOfRange
deriving DecidableEq, Repr

/-- The zone groups (R35). -/
inductive ZoneGroup where
  | a | b | c | d
deriving DecidableEq, Repr

/-- PanelEvent (R35). -/
inductive PanelEvent where
  | none
  | status (ready error bypass memory armed program powerFail : Bool)
  | datetime (year month day hour minute : Nat) (arm : BitVec 2) (master : Bool) (user : Int)
  | zones (group : ZoneGroup) (bitmap : Byte) (zones : List Nat) (ready : Bool)
  | label (code : Byte)
  | raw (code : Byte)
deriving DecidableEq, Repr

/-- The button of a KeypadEvent (R35). -/
inductive Button where
  | none
  | known (id : ButtonId)
  | unknown (b : Byte)
deriving DecidableEq, Repr

/-- The extra labels of a KeypadEvent (R35). -/
inductive Extra where
  | fire | aux | panic
deriving DecidableEq, Repr

/-- KeypadEvent (R35). -/
inductive KeypadEvent where
  | none
  | ke (button : Button) (extras : List Extra)
deriving DecidableEq, Repr

/-- What drives the DATA_OUT pin (R47). -/
inductive PinDrive where
  | released
  | driven (level : Bool)
deriving DecidableEq, Repr

/-- What the input ports of R39 show at one instant: the strobes with their values, and `clk` the CLK level after a
transition where one happens at this instant. `reset` says that the port RESET shows its active level, strobe or held
(DESIGN CHOICE, log entry 13). -/
structure PortSample where
  reset  : Bool
  clk    : Option Bool
  data   : Bool
  arm    : Bool
  armVal : Bool
  poll   : Bool
  tsAck  : Bool
  now    : Word
deriving DecidableEq, Repr

/-- The state. All fields but the first two are the spec's registers. -/
structure State where
  /-- The model's own: the configuration, which R7 makes an argument of the model. No step writes it (R41). -/
  cfg : Config
  /-- The model's own: the event words requested and not yet performed, in the total order of
  spec/20_memory.md R58. -/
  pending : List EventWord
  /-- `bld[P]` (R22). -/
  bldP : Bits
  /-- `bld[K]` (R22). -/
  bldK : Bits
  /-- `cmp[P]` (R23). -/
  cmpP : Bits
  /-- `cmp[K]` (R23). -/
  cmpK : Bits
  /-- `prv[P]` (R24). -/
  prvP : Bits
  /-- `prv[K]` (R24). -/
  prvK : Bits
  /-- `drop[P]` (R25). -/
  dropP : Bool
  /-- `drop[K]` (R25). -/
  dropK : Bool
  /-- R26. -/
  lastEdgeTs : Word
  /-- R27. -/
  edgeInterval : Word
  /-- R28. -/
  lastStatusTs : Word
  /-- R29. -/
  statusSeen : Bool
  /-- R30. -/
  lastDataTs : Word
  /-- R31. -/
  captureArmed : Bool
  /-- R32: bit 0 panel decoded, bit 1 keypad decoded. -/
  result : BitVec 2
  /-- `cmdOut[P]` (R33). -/
  cmdOutP : Byte
  /-- `cmdOut[K]` (R33). -/
  cmdOutK : Byte
  /-- `dstat[P]` (R34). -/
  dstatP : DStat
  /-- `dstat[K]` (R34). -/
  dstatK : DStat
  /-- R35. -/
  evP : PanelEvent
  /-- R35. -/
  evK : KeypadEvent
  /-- R36. -/
  statusLed : Bool
  /-- R46. -/
  tsValid : Bool
  tsYear : BitVec 16
  tsMonth : BitVec 16
  tsDay : BitVec 16
  tsHour : BitVec 16
  tsMinute : BitVec 16
  tsOk : Bool
  /-- DATA_OUT (R47). -/
  dataOut : PinDrive
deriving DecidableEq, Repr

/-- The faults of KWF. The spec has one error that stops (93 U1: "A model that calls `extract` out of range outside a
decoder must `fault`"), and every decoder checks the range first (20 R62), so no event faults. -/
inductive Fault where
  /-- Raised by the decoders (`panelRun`, `keypadRun`, `panelRow`) if a field were read beyond its word (R100). Safe: the
  machine stops where the spec's pseudocode raises. The pre-check of R62 keeps every transaction from reaching it. -/
  | indexOutOfRange (r : IndexOutOfRange)
deriving DecidableEq, Repr

/-- What the model refuses. -/
inductive Refusal where
  /-- Raised by `exec` for an instruction that has no meaning yet. Safe: nothing follows from it. -/
  | notModelled (mnemonic : String)
  /-- Raised by `step` on an event word with a reserved bit set (R71: "a model refuses it"). Safe. -/
  | illFormedEvent (e : EventWord)
  /-- Raised by `step` under a configuration that breaks R8 ("a model refuses it"). Safe. -/
  | badConfiguration
deriving DecidableEq, Repr

/-- The state right after RESET under configuration `c`: every register at its value of R43, nothing pending. -/
def State.resetWith (c : Config) : State where
  cfg := c
  pending := []
  bldP := []
  bldK := []
  cmpP := []
  cmpK := []
  prvP := []
  prvK := []
  dropP := false
  dropK := false
  lastEdgeTs := 0
  edgeInterval := 0
  lastStatusTs := 0
  statusSeen := false
  lastDataTs := 0
  captureArmed := false
  result := 0
  cmdOutP := 0
  cmdOutK := 0
  dstatP := .none
  dstatK := .none
  evP := .none
  evK := .none
  statusLed := false
  tsValid := false
  tsYear := 0
  tsMonth := 0
  tsDay := 0
  tsHour := 0
  tsMinute := 0
  tsOk := false
  dataOut := .released

/-- The state after power-on (R251). The registers are R43's; the configuration is the test configuration TC, which the
model chose (DESIGN CHOICE, unsafe for a claim that rests on it: log entry 2). -/
def State.reset : State := State.resetWith Config.testConfig

end Sys2Proof.Machine
end

