-- ==== Sys2Proof/Machine/Ops.lean ====
section
/-! DEFINITION. The named operations over the registers: bounded append, promotion, rejection, commit (spec/41_capture.md R121, R124; spec/42_framer.md R143, R144; spec/60_exceptions.md R221). KWF has no exception to take (60 R220, R229): `reject` is the one shared operation by which an error is reported. -/
namespace Sys2Proof.Machine

/-- What a transaction ends in. -/
abbrev Result := Host.Outcome State Fault Refusal

/-- Run `f` on the next state of `r`; a stop stays a stop. -/
def andThen (r : Result) (f : State → Result) : Result :=
  match r with
  | .next s => f s
  | .fault x => .fault x
  | .refused x => .refused x

/-- `a -_TW b` (R12). -/
def timeSince (now ts : Word) : Word := now - ts

/-- The bounded append of R124: a bit beyond the capacity is dropped, and sets the role's drop flag. -/
def appendBit (r : Role) (d : Bool) (s : State) : State :=
  match r with
  | .panel => if s.bldP.length < maxBits then { s with bldP := s.bldP ++ [d] } else { s with dropP := true }
  | .keypad => if s.bldK.length < maxBits then { s with bldK := s.bldK ++ [d] } else { s with dropK := true }

/-- Promotion: the building sequence becomes the completed word, and is emptied (R121, R143, R66). -/
def promote (r : Role) (s : State) : State :=
  match r with
  | .panel => { s with cmpP := s.bldP, bldP := [], dropP := false }
  | .keypad => { s with cmpK := s.bldK, bldK := [], dropK := false }

/-- `reject(r, st)` (R160, R200): the command output is 0 and the status tells why; nothing else is written. -/
def reject (r : Role) (st : DStat) (s : State) : State :=
  match r with
  | .panel => { s with cmdOutP := 0, dstatP := st }
  | .keypad => { s with cmdOutK := 0, dstatK := st }

/-- The commit of an accepted word (R165, R202). -/
def commit (r : Role) (w : Bits) (now : Word) (s : State) : State :=
  match r with
  | .panel => { s with lastDataTs := now, prvP := w }
  | .keypad => { s with lastDataTs := now, prvK := w }

/-- The message buffers of both roles are cleared (R144). -/
def clearEvents (s : State) : State := { s with evP := .none, evK := .none }

end Sys2Proof.Machine
end

