-- ==== Sys2Proof/Machine/Capture.lean ====
section
/-! DEFINITION. SignalCapture: the transaction EDGE in its two forms RISE and FALL (spec/41_capture.md R120 to R125). -/
namespace Sys2Proof.Machine

/-- The interval exceeds the capture threshold (R121): strict, on natural numbers. -/
def captureGap (c : Config) (interval : Word) : Bool := decide (interval.toNat > c.tBoundary - c.mCapture)

/-- Steps 1 and 2 of R120: the interval is measured and stored, and a gap promotes the keypad role. -/
def edgeTiming (now : Word) (s : State) : State :=
  let interval := timeSince now s.lastEdgeTs
  let s1 := { s with lastEdgeTs := now, edgeInterval := interval }
  if captureGap s.cfg interval then promote .keypad s1 else s1

/-- `EDGE` for the role its polarity names (R120). Disarmed, it changes nothing (R125). -/
def edge (r : Role) (d : Bool) (now : Word) (s : State) : State :=
  if s.captureArmed then appendBit r d (edgeTiming now s) else s

/-- RISE: a panel bit (R122). -/
def execRise (d : Bool) (now : Word) (s : State) : Result := .next (edge .panel d now s)

/-- FALL: a keypad bit (R123). -/
def execFall (d : Bool) (now : Word) (s : State) : Result := .next (edge .keypad d now s)

end Sys2Proof.Machine
end

