-- ==== Sys2Proof/Machine/Control.lean ====
section
/-! DEFINITION. The host's transactions ARM (spec/41_capture.md R126) and RESET (spec/70_reset_and_hazards.md R250). -/
namespace Sys2Proof.Machine

/-- `ARM(v)` (R126). -/
def execArm (v : Bool) (s : State) : Result := .next { s with captureArmed := v }

/-- `RESET` (R250): every register at its value of R43. The configuration is no register (R41), and the requests that
come after this one stay requested. -/
def execReset (s : State) : Result := .next { State.resetWith s.cfg with pending := s.pending }

end Sys2Proof.Machine
end

