-- ==== Sys2Proof/Machine/Layout.lean ====
section
/-! DEFINITION. The field layout of the panel and keypad branches: FIELDS(code) of spec/30_encoding.md R78 and R74, as lists of (offset, width). -/
namespace Sys2Proof.Machine

/-- A field of a branch: its offset and its width. -/
abbrev FieldSpec := Nat × Nat

/-- FIELDS(0x05): the seven 1-bit flags (R78). -/
def statusFields (c : Config) : List FieldSpec :=
  [(c.stOffReady, 1), (c.stOffError, 1), (c.stOffBypass, 1), (c.stOffMemory, 1), (c.stOffArmed, 1),
   (c.stOffProgram, 1), (c.stOffPowerFail, 1)]

/-- The six date/time fields, whose widths are parameters (R78). -/
def dateFields (c : Config) : List FieldSpec :=
  [(c.dtY1Off, c.dtY1W), (c.dtY2Off, c.dtY2W), (c.dtMonOff, c.dtMonW), (c.dtDayOff, c.dtDayW),
   (c.dtHourOff, c.dtHourW), (c.dtMinOff, c.dtMinW)]

/-- FIELDS(0xa5) (R78). -/
def datetimeFields (c : Config) : List FieldSpec :=
  dateFields c ++ [(c.dtArmOff, 2), (c.dtMasterOff, 1), (c.dtUserOff, 6)]

/-- FIELDS of a zone branch: the bitmap (R78). -/
def zoneFields (off : Nat) : List FieldSpec := [(off, 8)]

/-- FIELDS of a label, raw or null branch: none (R164). -/
def noFields : List FieldSpec := []

/-- The two fields of a keypad word (R74). -/
def keypadFields (c : Config) : List FieldSpec := [(0, 8), (c.kpByte2Off, 8)]

/-- Every field the configuration places in a word (R8). -/
def configFields (c : Config) : List FieldSpec :=
  statusFields c ++ datetimeFields c ++ zoneFields c.zoneOff27 ++ zoneFields c.zoneOff2D ++ zoneFields c.zoneOff34 ++
    zoneFields c.zoneOff3E ++ keypadFields c

/-- The range pre-check of R62: every field of the branch lies inside the word. -/
def fieldsInRange (w : Bits) (fields : List FieldSpec) : Bool := fields.all (fun f => inRange w f.1 f.2)

end Sys2Proof.Machine
end

