-- ==== Sys2Proof/WellFormed.lean ====
section
/-! DEFINITION. What a well-formed configuration is (spec/00_scope.md R8) and what a well-formed instruction is (spec/30_encoding.md R73, R74, R77, R79): the words a bit sequence of the hardware can hold, each under the one row that stands for it. -/
namespace Sys2Proof

/-- The constraints of R8. The byte constraint on the KP_CODE parameters and the range of ARM_STATE_ARMED are
types of `Config`. -/
def Config.wf (c : Config) : Bool :=
  decide (c.mCapture ≤ c.tBoundary) && decide (c.tBoundary + c.mFramer < 2 ^ 32) &&
  (Machine.configFields c).all (fun f => decide (f.1 + f.2 ≤ maxBits)) &&
  (Machine.dateFields c).all (fun f => decide (1 ≤ f.2) && decide (f.2 ≤ 16))

/-- The panel codes that R77 names. -/
def namedPanelCodes : List Byte :=
  [0x00, 0x05, 0xa5, 0x27, 0x2d, 0x34, 0x3e, 0x11, 0x0a, 0x5d, 0x63, 0x64, 0x69, 0x39, 0xb1]

/-- A tail that fits behind a command byte (R73, R74). -/
def tailFits (tail : Bits) : Bool := decide (8 + tail.length ≤ maxBits)

/-- The command byte of a keypad word belongs to none of the four rows above K_OTHER (R79). A word shorter than its
command byte has none. -/
def keypadCodeIsOther (c : Config) (w : Bits) : Bool :=
  match Machine.extract w 0 8 with
  | .error _ => true
  | .ok v => decide (BitVec.ofNat 8 v ∉ [0xff, c.kpCodeFire, c.kpCodeAux, c.kpCodePanic])

/-- Well-formed instructions of a configuration. -/
def Instr.wf (c : Config) : Instr → Bool
  | .rise _ _ => true
  | .fall _ _ => true
  | .poll _ _ => true
  | .arm _ => true
  | .reset => true
  | .pNull tail => tailFits tail
  | .pStatus tail _ => tailFits tail
  | .pDatetime tail _ _ => tailFits tail
  | .pZoneA tail _ => tailFits tail
  | .pZoneB tail _ => tailFits tail
  | .pZoneC tail _ => tailFits tail
  | .pZoneD tail _ => tailFits tail
  | .pLabel11 tail _ => tailFits tail
  | .pLabel0A tail _ => tailFits tail
  | .pLabel5D tail _ => tailFits tail
  | .pLabel63 tail _ => tailFits tail
  | .pLabel64 tail _ => tailFits tail
  | .pLabel69 tail _ => tailFits tail
  | .pLabel39 tail _ => tailFits tail
  | .pLabelB1 tail _ => tailFits tail
  | .pRaw code tail _ => tailFits tail && decide (code ∉ namedPanelCodes)
  | .kNoise n => decide (n ≤ maxBits)
  | .kButton tail _ => tailFits tail && Machine.hasZero tail
  | .kFire tail _ => tailFits tail && decide (c.kpCodeFire ≠ 0xff)
  | .kAux tail _ => tailFits tail && decide (c.kpCodeAux ∉ [0xff, c.kpCodeFire])
  | .kPanic tail _ => tailFits tail && decide (c.kpCodePanic ∉ [0xff, c.kpCodeFire, c.kpCodeAux])
  | .kOther w _ => decide (w.length ≤ maxBits) && Machine.hasZero w && keypadCodeIsOther c w

end Sys2Proof
end

