-- ==== Sys2Proof/Decode.lean ====
section
/-! DEFINITION. Decoding, total and rejecting by name, and after it the encoder: the event word of spec/30_encoding.md R70 and R71, the panel command map R77, the keypad map R79, the trace notation R72, and the words of spec/opcode_table.json. -/
namespace Sys2Proof

open Machine (extract byteBits hasZero)

/-- An encoded instruction as KWF receives it: an event word, or the event word of a POLL with the word framed for a
role, which that POLL decodes. -/
inductive Encoded where
  | event (e : EventWord)
  | panel (poll : EventWord) (w : Bits)
  | keypad (poll : EventWord) (w : Bits)
deriving DecidableEq, Repr

/-- Why an encoding is rejected. -/
inductive DecodeError where
  /-- A reserved bit of the event word is set (R71). -/
  | reservedBit (e : EventWord)
  /-- A panel word too short for its command byte (R73). -/
  | noCommandByte (r : IndexOutOfRange)
  /-- The word is longer than the capacity of a bit sequence (R10, R73, R74). -/
  | tooLong (len : Nat)
  /-- The event that accompanies a framed word is not a POLL. -/
  | notAPoll (e : EventWord)
deriving DecidableEq, Repr

/-- Decode an event word (R71). -/
def decodeEvent (e : EventWord) : Except DecodeError Instr :=
  let kind := e.extractLsb' 34 2
  let lvl := e.getLsbD 33
  let d := e.getLsbD 32
  let now := e.extractLsb' 0 32
  if kind = 0b00 then
    if lvl then .ok (.rise d now) else .ok (.fall d now)
  else if lvl then .error (.reservedBit e)
  else if kind = 0b01 then .ok (.poll d now)
  else if kind = 0b10 then .ok (.arm d)
  else if d then .error (.reservedBit e)
  else .ok .reset

/-- The panel command map (R77): the choice that a command byte makes among the 16 rows. It stands here once; the
decoder and the framer (Machine/Framer.lean) both use it. -/
def panelCase {α : Type} (code : Byte)
    (null status datetime zoneA zoneB zoneC zoneD label11 label0A label5D label63 label64 label69 label39 labelB1
      raw : α) : α :=
  if code = 0x00 then null
  else if code = 0x05 then status
  else if code = 0xa5 then datetime
  else if code = 0x27 then zoneA
  else if code = 0x2d then zoneB
  else if code = 0x34 then zoneC
  else if code = 0x3e then zoneD
  else if code = 0x11 then label11
  else if code = 0x0a then label0A
  else if code = 0x5d then label5D
  else if code = 0x63 then label63
  else if code = 0x64 then label64
  else if code = 0x69 then label69
  else if code = 0x39 then label39
  else if code = 0xb1 then labelB1
  else raw

/-- The keypad map (R79): the first row whose condition a word meets. The conditions are not exclusive; the meanings
of the rows test each of them again (Machine/Keypad.lean). -/
def keypadCase {α : Type} (c : Config) (w : Bits) (noise button fire aux panic other : α) : α :=
  if hasZero w then
    match extract w 0 8 with
    | .error _ => other
    | .ok v =>
      if BitVec.ofNat 8 v = 0xff then button
      else if BitVec.ofNat 8 v = c.kpCodeFire then fire
      else if BitVec.ofNat 8 v = c.kpCodeAux then aux
      else if BitVec.ofNat 8 v = c.kpCodePanic then panic
      else other
  else noise

/-- The panel row of a command byte and the bits after it. -/
def panelInstr (code : Byte) (tail : Bits) (now : Word) (a : Bool) : Instr :=
  panelCase code (.pNull tail) (.pStatus tail now) (.pDatetime tail now a) (.pZoneA tail now) (.pZoneB tail now)
    (.pZoneC tail now) (.pZoneD tail now) (.pLabel11 tail now) (.pLabel0A tail now) (.pLabel5D tail now)
    (.pLabel63 tail now) (.pLabel64 tail now) (.pLabel69 tail now) (.pLabel39 tail now) (.pLabelB1 tail now)
    (.pRaw code tail now)

/-- The row of a panel word: `code <- extract(w, 0, 8)` selects it (R73, R160). -/
def decodePanel (w : Bits) (now : Word) (a : Bool) : Except IndexOutOfRange Instr :=
  match extract w 0 8 with
  | .error r => .error r
  | .ok v => .ok (panelInstr (BitVec.ofNat 8 v) (w.drop 8) now a)

/-- The row of a keypad word (R74, R79). -/
def decodeKeypad (c : Config) (w : Bits) (now : Word) : Instr :=
  keypadCase c w (.kNoise w.length) (.kButton (w.drop 8) now) (.kFire (w.drop 8) now) (.kAux (w.drop 8) now)
    (.kPanic (w.drop 8) now) (.kOther w now)

/-- Decode any encoding. -/
def decode (c : Config) : Encoded → Except DecodeError Instr
  | .event e => decodeEvent e
  | .panel e w =>
    match decodeEvent e with
    | .ok (.poll a now) =>
      if w.length ≤ maxBits then
        match decodePanel w now a with
        | .ok i => .ok i
        | .error r => .error (.noCommandByte r)
      else .error (.tooLong w.length)
    | .ok _ => .error (.notAPoll e)
    | .error r => .error r
  | .keypad e w =>
    match decodeEvent e with
    | .ok (.poll _ now) =>
      if w.length ≤ maxBits then .ok (decodeKeypad c w now) else .error (.tooLong w.length)
    | .ok _ => .error (.notAPoll e)
    | .error r => .error r

/-! The encoder. -/

/-- The event word of R70 from its fields. -/
def eventWord (kind : BitVec 2) (lvl d : Bool) (now : Word) : EventWord :=
  kind ++ BitVec.ofBool lvl ++ BitVec.ofBool d ++ now

/-- The event word of a POLL. -/
def pollWord (a : Bool) (now : Word) : EventWord := eventWord 0b01 false a now

/-- A panel word: command byte and tail, delivered by a POLL. -/
def panelWord (code : Byte) (tail : Bits) (now : Word) (a : Bool) : Encoded :=
  .panel (pollWord a now) (byteBits code ++ tail)

/-- A keypad word, delivered by a POLL. -/
def keypadWord (w : Bits) (now : Word) : Encoded := .keypad (pollWord false now) w

/-- Encode an instruction: the bits an encoding ignores are 0 (R70), and so are the operands of the POLL that the
row does not use. -/
def encode (c : Config) : Instr → Encoded
  | .rise d now => .event (eventWord 0b00 true d now)
  | .fall d now => .event (eventWord 0b00 false d now)
  | .poll a now => .event (pollWord a now)
  | .arm v => .event (eventWord 0b10 false v 0)
  | .reset => .event (eventWord 0b11 false false 0)
  | .pNull tail => panelWord 0x00 tail 0 false
  | .pStatus tail now => panelWord 0x05 tail now false
  | .pDatetime tail now a => panelWord 0xa5 tail now a
  | .pZoneA tail now => panelWord 0x27 tail now false
  | .pZoneB tail now => panelWord 0x2d tail now false
  | .pZoneC tail now => panelWord 0x34 tail now false
  | .pZoneD tail now => panelWord 0x3e tail now false
  | .pLabel11 tail now => panelWord 0x11 tail now false
  | .pLabel0A tail now => panelWord 0x0a tail now false
  | .pLabel5D tail now => panelWord 0x5d tail now false
  | .pLabel63 tail now => panelWord 0x63 tail now false
  | .pLabel64 tail now => panelWord 0x64 tail now false
  | .pLabel69 tail now => panelWord 0x69 tail now false
  | .pLabel39 tail now => panelWord 0x39 tail now false
  | .pLabelB1 tail now => panelWord 0xb1 tail now false
  | .pRaw code tail now => panelWord code tail now false
  | .kNoise n => keypadWord (List.replicate n true) 0
  | .kButton tail now => keypadWord (byteBits 0xff ++ tail) now
  | .kFire tail now => keypadWord (byteBits c.kpCodeFire ++ tail) now
  | .kAux tail now => keypadWord (byteBits c.kpCodeAux ++ tail) now
  | .kPanic tail now => keypadWord (byteBits c.kpCodePanic ++ tail) now
  | .kOther w now => keypadWord w now

/-! The notation of traces (R72). -/

/-- A line of a trace. -/
inductive TraceLine where
  | rise (d : Bool) (t : Nat)
  | fall (d : Bool) (t : Nat)
  | poll (t : Nat)
  | pollAck (t : Nat)
  | arm (v : Bool)
  | reset
  /-- `BITS P="..." K="..." @t0 /h`. -/
  | bits (p k : Bits) (t0 h : Nat)
deriving DecidableEq, Repr

/-- The events of the pairs of `BITS` from time `t` on: `FALL k_i @t`, then `RISE p_i @(t + h)` (R72). -/
def bitsEvents (h : Nat) : Nat → List (Bool × Bool) → List EventWord
  | _, [] => []
  | t, (p, k) :: rest =>
    eventWord 0b00 false k (BitVec.ofNat 32 t) :: eventWord 0b00 true p (BitVec.ofNat 32 (t + h)) ::
      bitsEvents h (t + 2 * h) rest

/-- The event words of a trace line; `none` for a `BITS` line whose strings differ in length, which R72 excludes. -/
def TraceLine.expand : TraceLine → Option (List EventWord)
  | .rise d t => some [eventWord 0b00 true d (BitVec.ofNat 32 t)]
  | .fall d t => some [eventWord 0b00 false d (BitVec.ofNat 32 t)]
  | .poll t => some [pollWord false (BitVec.ofNat 32 t)]
  | .pollAck t => some [pollWord true (BitVec.ofNat 32 t)]
  | .arm v => some [eventWord 0b10 false v 0]
  | .reset => some [eventWord 0b11 false false 0]
  | .bits p k t0 h => if p.length = k.length then some (bitsEvents h t0 (p.zip k)) else none

/-! The words of spec/opcode_table.json. -/

/-- Rows of the format event36 have 36 bits, five bytes. -/
def tableIsEvent (nbits : Nat) : Bool := nbits == 36 || nbits == 40

/-- The bytes of a panel or keypad table word, the first byte first, each most significant bit first (R52), then
zeros up to the longest word, `maxBits`. -/
def tableBits (nbits w : Nat) : Bits :=
  let bits := (List.range (nbits / 8)).flatMap (fun i => byteBits (BitVec.ofNat 8 (w / 256 ^ i)))
  bits ++ List.replicate (maxBits - bits.length) false

/-- The role of a table word. The table has panel and keypad rows over the same eight bits: a code with a panel row
of its own is that row; 0xff, which has a row of its own for the keypad only, is K_BUTTON; any other is P_RAW. -/
def tableIsKeypad (w : Nat) : Bool := w % 256 == 0xff

/-- The instruction of a table word (its numbering: bit 0 is the least significant bit of the first byte). -/
def decodeTableWord (nbits w : Nat) : Option Instr :=
  if tableIsEvent nbits then
    if w < 2 ^ 36 then (decode Config.testConfig (.event (BitVec.ofNat 36 w))).toOption else none
  else if nbits = 0 ∨ maxBits < nbits ∨ 2 ^ nbits ≤ w then none
  else if tableIsKeypad w then (decode Config.testConfig (.keypad (pollWord false 0) (tableBits nbits w))).toOption
  else (decode Config.testConfig (.panel (pollWord false 0) (tableBits nbits w))).toOption

end Sys2Proof
end

