-- ==== Sys2Proof/Machine/Flags.lean ====
section
/-! DEFINITION. The status bits of KWF: the status indicator (spec/42_framer.md R142), the result code (R146), the status codes (spec/60_exceptions.md R221) and the packed views (spec/10_state.md R37, R38). KWF has no arithmetic flags (R49). -/
namespace Sys2Proof.Machine

/-- The level the status indicator takes at a POLL at `now` (R142). -/
def statusIndicator (s : State) (now : Word) : Bool :=
  s.statusSeen && decide ((timeSince now s.lastStatusTs).toNat ≤ statusWindow)

/-- The result code of a guard pass (R146): bit 0 when the panel decoder returned a non-zero code, bit 1 when the
keypad decoder did. The codes returned stand in `cmdOut` (R33). -/
def resultCode (s : State) : BitVec 2 :=
  BitVec.ofBool (decide (s.cmdOutK ≠ 0)) ++ BitVec.ofBool (decide (s.cmdOutP ≠ 0))

/-- The 4-bit code of a status (R221). -/
def DStat.code : DStat → BitVec 4
  | .none => 0
  | .ok => 1
  | .unknownCommand => 2
  | .duplicate => 3
  | .nullCommand => 4
  | .noise => 5
  | .checksumMismatch => 6
  | .indexOutOfRange => 7

/-- FLAGS (R37): bit 0 statusLed, 1 statusSeen, 2 drop[P], 3 drop[K], 4 tsValid, 5 tsOk, 6 captureArmed. -/
def flagsView (s : State) : BitVec 7 :=
  BitVec.ofBool s.captureArmed ++ BitVec.ofBool s.tsOk ++ BitVec.ofBool s.tsValid ++ BitVec.ofBool s.dropK ++
    BitVec.ofBool s.dropP ++ BitVec.ofBool s.statusSeen ++ BitVec.ofBool s.statusLed

/-- RESULT (R38). -/
def resultView (s : State) : BitVec 2 := s.result

/-- CMD (R38): `cmdOut[K] << 8 | cmdOut[P]`. -/
def cmdView (s : State) : BitVec 16 := s.cmdOutK ++ s.cmdOutP

/-- DSTAT (R38): `dstat[K] << 4 | dstat[P]`. -/
def dstatView (s : State) : BitVec 8 := s.dstatK.code ++ s.dstatP.code

end Sys2Proof.Machine
end

