-- ==== Sys2Proof/Machine/Operands.lean ====
section
/-! DEFINITION. The operand forms: the fields a branch reads from its word, and the values computed from them (spec/30_encoding.md R84): year, user code (spec/43_panel_decode.md R167, R168), zone list (R169), button and extra labels (spec/44_keypad_decode.md R204 to R207). -/
namespace Sys2Proof.Machine

/-- A 1-bit field. -/
def readFlag (w : Bits) (off : Nat) : Except IndexOutOfRange Bool :=
  match extract w off 1 with
  | .ok v => .ok (v != 0)
  | .error r => .error r

/-- The year of a date/time word: two 2-digit groups (R168, D22). -/
def yearOf (y1 y2 : Nat) : Nat := 100 * y1 + y2

/-- `remapUser(arm, uraw)` (R167), on unbounded integers. -/
def remapUser (c : Config) (arm : BitVec 2) (uraw : Nat) : Int :=
  let u : Int := uraw
  let u := if arm = c.armStateArmed then u - (c.armUserOffset : Int) else u
  let u := u + userShift
  if u > sysCodeLimit then u + sysCodeDelta else u

/-- `zones(bitmap, base)` (R169): bit `k` of weight `2^k` is zone `base + k + 1`, in increasing order. -/
def zonesOf (bitmap : Byte) (base : Nat) : List Nat :=
  ((List.range 8).filter (fun k => bitmap.getLsbD k)).map (fun k => base + k + 1)

/-- The first zone of a group is `zoneBase + 1` (R170 to R173). -/
def zoneBase : ZoneGroup → Nat
  | .a => 0
  | .b => 8
  | .c => 16
  | .d => 24

/-- The zone record of a bitmap (R169). -/
def zoneEvent (g : ZoneGroup) (bitmap : Byte) : PanelEvent :=
  .zones g bitmap (zonesOf bitmap (zoneBase g)) (decide (bitmap = 0))

/-- `KP_BUTTON_TABLE` (R85): the three fixed entries, the fixed absence of 0x01, and the configuration's entries. -/
def buttonTable (c : Config) (b : Byte) : Option ButtonId :=
  if b = 0x82 then some .digit1
  else if b = 0xd7 then some .stay
  else if b = 0xff then some .echo
  else if b = 0x01 then none
  else c.kpButtons.lookup b

/-- The button of a keypad word (R204): looked up under code 0xff only. -/
def buttonOf (c : Config) (code kb2 : Byte) : Button :=
  if code = 0xff then
    match buttonTable c kb2 with
    | some id => .known id
    | none => .unknown kb2
  else .none

/-- The extra labels of a keypad code (R205 to R207): each condition tested on its own, in the order FIRE, AUX, PANIC. -/
def extrasOf (c : Config) (code : Byte) : List Extra :=
  (if code = c.kpCodeFire then [Extra.fire] else []) ++ (if code = c.kpCodeAux then [Extra.aux] else []) ++
    (if code = c.kpCodePanic then [Extra.panic] else [])

/-- `LABEL_TEXT` (R7, D27): an informative rendering, which no transaction reads. -/
def labelTextOf (c : Config) (code : Byte) : Option String := c.labelText.lookup code

end Sys2Proof.Machine
end

