-- ==== Sys2Proof/Machine/Keypad.lean ====
section
/-! DEFINITION. KeypadDecoder: the keypad rows of spec/30_encoding.md R79, each with the meaning of its rule in spec/44_keypad_decode.md (R200 to R211). The rows after K_NOISE are not exclusive: the message of a word is built from every condition its code meets, whichever row names the word. -/
namespace Sys2Proof.Machine

/-- Why a keypad word is rejected, if it is: noise first, then range (R200, R201, R225). -/
def keypadGate (w : Bits) (s : State) : Option DStat :=
  if !hasZero w then some .noise
  else if fieldsInRange w (keypadFields s.cfg) then none
  else some .indexOutOfRange

/-- The acceptance of a word with fields `code` and `kb2`: commit, message, return value and status (R202 to R210).
Code 0x00 is committed and returned, and 0 counts as not decoded (R209). -/
def keypadAccept (w : Bits) (code kb2 : Byte) (now : Word) (s : State) : State :=
  { commit .keypad w now s with
    evK := .ke (buttonOf s.cfg code kb2) (extrasOf s.cfg code)
    cmdOutK := code
    dstatK := if code = 0x00 then .nullCommand else .ok }

/-- KeypadDecode (R200). -/
def keypadRun (w : Bits) (now : Word) (s : State) : Result :=
  match keypadGate w s with
  | some why => .next (reject .keypad why s)
  | none =>
    match extract w 0 8, extract w s.cfg.kpByte2Off 8 with
    | .ok code, .ok kb2 => .next (keypadAccept w (BitVec.ofNat 8 code) (BitVec.ofNat 8 kb2) now s)
    | .error r, _ => .fault (.indexOutOfRange r)
    | _, .error r => .fault (.indexOutOfRange r)

/-- K_NOISE (R200): `n` ones. -/
def execKNoise (n : Nat) (s : State) : Result := keypadRun (List.replicate n true) 0 s

/-- K_BUTTON (R204). -/
def execKButton (tail : Bits) (now : Word) (s : State) : Result := keypadRun (byteBits 0xff ++ tail) now s

/-- K_FIRE (R205). -/
def execKFire (tail : Bits) (now : Word) (s : State) : Result := keypadRun (byteBits s.cfg.kpCodeFire ++ tail) now s

/-- K_AUX (R206). -/
def execKAux (tail : Bits) (now : Word) (s : State) : Result := keypadRun (byteBits s.cfg.kpCodeAux ++ tail) now s

/-- K_PANIC (R207). -/
def execKPanic (tail : Bits) (now : Word) (s : State) : Result := keypadRun (byteBits s.cfg.kpCodePanic ++ tail) now s

/-- K_OTHER (R208). -/
def execKOther (w : Bits) (now : Word) (s : State) : Result := keypadRun w now s

end Sys2Proof.Machine
end

