-- ==== Sys2Proof/Machine/Panel.lean ====
section
/-! DEFINITION. PanelDecoder: the panel rows of spec/30_encoding.md R77, each with the meaning of its rule in spec/43_panel_decode.md (R160 to R183). -/
namespace Sys2Proof.Machine

/-- Why a panel word is rejected, if it is: the tests of R160 in their order (R225), the first that holds. -/
def panelGate (code : Byte) (w : Bits) (fields : List FieldSpec) (s : State) : Option DStat :=
  if w = s.prvP then some .duplicate
  else if code = 0x00 then some .nullCommand
  else if s.cfg.checksumStrict && !validate s.cfg.ckDataOffset w then some .checksumMismatch
  else if fieldsInRange w fields then none
  else some .indexOutOfRange

/-- What the branch of a command does on the committed state; it reads its fields from the word. -/
abbrev Branch := Bits → Word → State → Except IndexOutOfRange State

/-- PanelDecode (R160) for one row: reject, or commit, run the branch and report the code (R165, R183). -/
def panelRun (code : Byte) (fields : List FieldSpec) (branch : Branch) (st : DStat) (tail : Bits) (now : Word)
    (s : State) : Result :=
  let w := byteBits code ++ tail
  match panelGate code w fields s with
  | some why => .next (reject .panel why s)
  | none =>
    match branch w now (commit .panel w now s) with
    | .ok s' => .next { s' with cmdOutP := code, dstatP := st }
    | .error r => .fault (.indexOutOfRange r)

/-- The branch of P_STATUS (R166). -/
def statusBranch : Branch := fun w now s => do
  let ready ← readFlag w s.cfg.stOffReady
  let error ← readFlag w s.cfg.stOffError
  let bypass ← readFlag w s.cfg.stOffBypass
  let memory ← readFlag w s.cfg.stOffMemory
  let armed ← readFlag w s.cfg.stOffArmed
  let program ← readFlag w s.cfg.stOffProgram
  let powerFail ← readFlag w s.cfg.stOffPowerFail
  .ok { s with
    lastStatusTs := now
    statusSeen := true
    evP := .status ready error bypass memory armed program powerFail }

/-- The branch of P_DATETIME (R168); `a` is TSYNC's answer. The port takes 16 bits of each value (R46). -/
def datetimeBranch (a : Bool) : Branch := fun w _ s => do
  let y1 ← extract w s.cfg.dtY1Off s.cfg.dtY1W
  let y2 ← extract w s.cfg.dtY2Off s.cfg.dtY2W
  let month ← extract w s.cfg.dtMonOff s.cfg.dtMonW
  let day ← extract w s.cfg.dtDayOff s.cfg.dtDayW
  let hour ← extract w s.cfg.dtHourOff s.cfg.dtHourW
  let minute ← extract w s.cfg.dtMinOff s.cfg.dtMinW
  let arm ← extract w s.cfg.dtArmOff 2
  let master ← readFlag w s.cfg.dtMasterOff
  let uraw ← extract w s.cfg.dtUserOff 6
  .ok { s with
    evP := .datetime (yearOf y1 y2) month day hour minute (BitVec.ofNat 2 arm) master
      (remapUser s.cfg (BitVec.ofNat 2 arm) uraw)
    tsValid := true
    tsYear := BitVec.ofNat 16 (yearOf y1 y2)
    tsMonth := BitVec.ofNat 16 month
    tsDay := BitVec.ofNat 16 day
    tsHour := BitVec.ofNat 16 hour
    tsMinute := BitVec.ofNat 16 minute
    tsOk := a }

/-- The branch of a zone group whose bitmap stands at `off` (R169). -/
def zoneBranch (g : ZoneGroup) (off : Nat) : Branch := fun w _ s => do
  let b ← extract w off 8
  .ok { s with evP := zoneEvent g (BitVec.ofNat 8 b) }

/-- The branch of a code that names its whole message: a label (R174 to R181) or P_RAW (R182). -/
def messageBranch (ev : PanelEvent) : Branch := fun _ _ s => .ok { s with evP := ev }

/-- P_NULL (R162): never accepted, so its branch is never run. -/
def execPNull (tail : Bits) (s : State) : Result :=
  panelRun 0x00 noFields (messageBranch .none) .nullCommand tail 0 s

/-- P_STATUS (R166). -/
def execPStatus (tail : Bits) (now : Word) (s : State) : Result :=
  panelRun 0x05 (statusFields s.cfg) statusBranch .ok tail now s

/-- P_DATETIME (R168). -/
def execPDatetime (tail : Bits) (now : Word) (a : Bool) (s : State) : Result :=
  panelRun 0xa5 (datetimeFields s.cfg) (datetimeBranch a) .ok tail now s

/-- P_ZONE_A (R170). -/
def execPZoneA (tail : Bits) (now : Word) (s : State) : Result :=
  panelRun 0x27 (zoneFields s.cfg.zoneOff27) (zoneBranch .a s.cfg.zoneOff27) .ok tail now s

/-- P_ZONE_B (R171). -/
def execPZoneB (tail : Bits) (now : Word) (s : State) : Result :=
  panelRun 0x2d (zoneFields s.cfg.zoneOff2D) (zoneBranch .b s.cfg.zoneOff2D) .ok tail now s

/-- P_ZONE_C (R172). -/
def execPZoneC (tail : Bits) (now : Word) (s : State) : Result :=
  panelRun 0x34 (zoneFields s.cfg.zoneOff34) (zoneBranch .c s.cfg.zoneOff34) .ok tail now s

/-- P_ZONE_D (R173). -/
def execPZoneD (tail : Bits) (now : Word) (s : State) : Result :=
  panelRun 0x3e (zoneFields s.cfg.zoneOff3E) (zoneBranch .d s.cfg.zoneOff3E) .ok tail now s

/-- P_LABEL_11 (R174). -/
def execPLabel11 (tail : Bits) (now : Word) (s : State) : Result :=
  panelRun 0x11 noFields (messageBranch (.label 0x11)) .ok tail now s

/-- P_LABEL_0A (R175). -/
def execPLabel0A (tail : Bits) (now : Word) (s : State) : Result :=
  panelRun 0x0a noFields (messageBranch (.label 0x0a)) .ok tail now s

/-- P_LABEL_5D (R176). -/
def execPLabel5D (tail : Bits) (now : Word) (s : State) : Result :=
  panelRun 0x5d noFields (messageBranch (.label 0x5d)) .ok tail now s

/-- P_LABEL_63 (R177). -/
def execPLabel63 (tail : Bits) (now : Word) (s : State) : Result :=
  panelRun 0x63 noFields (messageBranch (.label 0x63)) .ok tail now s

/-- P_LABEL_64 (R178). -/
def execPLabel64 (tail : Bits) (now : Word) (s : State) : Result :=
  panelRun 0x64 noFields (messageBranch (.label 0x64)) .ok tail now s

/-- P_LABEL_69 (R179). -/
def execPLabel69 (tail : Bits) (now : Word) (s : State) : Result :=
  panelRun 0x69 noFields (messageBranch (.label 0x69)) .ok tail now s

/-- P_LABEL_39 (R180). -/
def execPLabel39 (tail : Bits) (now : Word) (s : State) : Result :=
  panelRun 0x39 noFields (messageBranch (.label 0x39)) .ok tail now s

/-- P_LABEL_B1 (R181). -/
def execPLabelB1 (tail : Bits) (now : Word) (s : State) : Result :=
  panelRun 0xb1 noFields (messageBranch (.label 0xb1)) .ok tail now s

/-- P_RAW (R182): accepted, and reported as an unknown command. -/
def execPRaw (code : Byte) (tail : Bits) (now : Word) (s : State) : Result :=
  panelRun code noFields (messageBranch (.raw code)) .unknownCommand tail now s

end Sys2Proof.Machine
end

