-- ==== Sys2Proof/Machine/Framer.lean ====
section
/-! DEFINITION. WordFramer: the transaction POLL (spec/42_framer.md R140 to R147), which runs the panel row and the keypad row of the two completed words. -/
namespace Sys2Proof.Machine

/-- The guard (R141): the stored interval of the last armed edge exceeds the framer threshold, strictly, and the panel
building sequence is long enough. -/
def framerGuard (s : State) : Bool :=
  decide (s.edgeInterval.toNat > s.cfg.tBoundary + s.cfg.mFramer) && decide (minPanelBits ≤ s.bldP.length)

/-- What every POLL does first: the pulse `tsValid` ends (R46), and the indicator is updated (R142). -/
def beginPoll (now : Word) (s : State) : State :=
  { s with tsValid := false, statusLed := statusIndicator s now }

/-- PanelDecode on `w` (R160): the command byte selects the row by the map R77, and the row's meaning runs. -/
def panelRow (w : Bits) (now : Word) (a : Bool) (s : State) : Result :=
  match extract w 0 8 with
  | .error r => .fault (.indexOutOfRange r)
  | .ok v =>
    let code := BitVec.ofNat 8 v
    let tail := w.drop 8
    panelCase code (execPNull tail s) (execPStatus tail now s) (execPDatetime tail now a s) (execPZoneA tail now s)
      (execPZoneB tail now s) (execPZoneC tail now s) (execPZoneD tail now s) (execPLabel11 tail now s)
      (execPLabel0A tail now s) (execPLabel5D tail now s) (execPLabel63 tail now s) (execPLabel64 tail now s)
      (execPLabel69 tail now s) (execPLabel39 tail now s) (execPLabelB1 tail now s) (execPRaw code tail now s)

/-- KeypadDecode on `w` (R200): the row of the map R79, and its meaning. -/
def keypadRow (w : Bits) (now : Word) (s : State) : Result :=
  keypadCase s.cfg w (execKNoise w.length s) (execKButton (w.drop 8) now s) (execKFire (w.drop 8) now s)
    (execKAux (w.drop 8) now s) (execKPanic (w.drop 8) now s) (execKOther w now s)

/-- The result of a guard pass (R146). -/
def endPoll (s : State) : State := { s with result := resultCode s }

/-- Steps 3 and 4 of POLL: promote the panel role, clear the messages, decode both words, report (R143 to R146). -/
def framePass (a : Bool) (now : Word) (s : State) : Result :=
  let s1 := clearEvents (promote .panel s)
  andThen (panelRow s1.cmpP now a s1) fun s2 =>
    andThen (keypadRow s2.cmpK now s2) fun s3 => .next (endPoll s3)

/-- `POLL(now)` with TSYNC's answer `a` (R140). -/
def execPoll (a : Bool) (now : Word) (s : State) : Result :=
  if framerGuard s then framePass a now (beginPoll now s) else .next { beginPoll now s with result := 0 }

end Sys2Proof.Machine
end

