-- ==== Sys2Proof/Machine/Dispatch.lean ====
section
/-! DEFINITION. One arm for each instruction. -/
namespace Sys2Proof.Machine

def exec (i : Instr) (s : State) : Host.Outcome State Fault Refusal :=
  match i with
  | .rise d now => Sys2Proof.Machine.execRise d now s
  | .fall d now => Sys2Proof.Machine.execFall d now s
  | .poll a now => Sys2Proof.Machine.execPoll a now s
  | .arm v => Sys2Proof.Machine.execArm v s
  | .reset => Sys2Proof.Machine.execReset s
  | .pNull tail => Sys2Proof.Machine.execPNull tail s
  | .pStatus tail now => Sys2Proof.Machine.execPStatus tail now s
  | .pDatetime tail now a => Sys2Proof.Machine.execPDatetime tail now a s
  | .pZoneA tail now => Sys2Proof.Machine.execPZoneA tail now s
  | .pZoneB tail now => Sys2Proof.Machine.execPZoneB tail now s
  | .pZoneC tail now => Sys2Proof.Machine.execPZoneC tail now s
  | .pZoneD tail now => Sys2Proof.Machine.execPZoneD tail now s
  | .pLabel11 tail now => Sys2Proof.Machine.execPLabel11 tail now s
  | .pLabel0A tail now => Sys2Proof.Machine.execPLabel0A tail now s
  | .pLabel5D tail now => Sys2Proof.Machine.execPLabel5D tail now s
  | .pLabel63 tail now => Sys2Proof.Machine.execPLabel63 tail now s
  | .pLabel64 tail now => Sys2Proof.Machine.execPLabel64 tail now s
  | .pLabel69 tail now => Sys2Proof.Machine.execPLabel69 tail now s
  | .pLabel39 tail now => Sys2Proof.Machine.execPLabel39 tail now s
  | .pLabelB1 tail now => Sys2Proof.Machine.execPLabelB1 tail now s
  | .pRaw code tail now => Sys2Proof.Machine.execPRaw code tail now s
  | .kNoise n => Sys2Proof.Machine.execKNoise n s
  | .kButton tail now => Sys2Proof.Machine.execKButton tail now s
  | .kFire tail now => Sys2Proof.Machine.execKFire tail now s
  | .kAux tail now => Sys2Proof.Machine.execKAux tail now s
  | .kPanic tail now => Sys2Proof.Machine.execKPanic tail now s
  | .kOther w now => Sys2Proof.Machine.execKOther w now s

end Sys2Proof.Machine
end

