-- ==== Sys2Proof/Machine/Fetch.lean ====
section
/-! DEFINITION. How an instruction of spec/opcode_table.json comes to be the next one a step runs. KWF has no program store (spec/20_memory.md R63): an event is requested, and a panel or keypad word stands in the sequence from which the next POLL takes it. -/
namespace Sys2Proof.Machine

/-- An interval just above the framer threshold, with which a POLL passes its guard (R141). -/
def gapInterval (c : Config) : Word := BitVec.ofNat 32 (c.tBoundary + c.mFramer + 1)

/-- A POLL is requested next and passes its guard on the panel word `p`. -/
def placePoll (p : Bits) (s : State) : State :=
  { s with bldP := p, edgeInterval := gapInterval s.cfg, pending := pollWord false 0 :: s.pending }

/-- An event word is requested next. A panel word is built, and a POLL is requested after its gap. A keypad word is
completed; the panel word that lets the POLL pass its guard is the one being built, or a null command where that is
too short. -/
def placeTableWord (s : State) (nbits w : Nat) : State :=
  if tableIsEvent nbits then { s with pending := BitVec.ofNat 36 w :: s.pending }
  else if tableIsKeypad w then
    { placePoll (if minPanelBits ≤ s.bldP.length then s.bldP else List.replicate minPanelBits false) s with
      cmpK := tableBits nbits w }
  else placePoll (tableBits nbits w) s

end Sys2Proof.Machine
end

