-- ==== Sys2Proof/Machine/Step.lean ====
section
/-! DEFINITION. One step: the next requested transaction, as one indivisible step (spec/00_scope.md R14, spec/20_memory.md R56, R58). -/
namespace Sys2Proof.Machine

/-- A step performs the first pending event. A configuration that breaks R8 is refused, and so is an ill-formed event
word (R71). With nothing requested, nothing changes (R21: what KWF does next is set only by the next input
transaction). -/
def step (s : State) : Host.Outcome State Fault Refusal :=
  if s.cfg.wf then
    match s.pending with
    | [] => .next s
    | e :: rest =>
      match decodeEvent e with
      | .ok i => exec i { s with pending := rest }
      | .error _ => .refused (.illFormedEvent e)
  else .refused .badConfiguration

/-- Place an instruction of spec/opcode_table.json so that the very next step runs it (log entry 5). -/
def State.withFetchWord (s : State) (nbits w : Nat) : State := placeTableWord s nbits w

end Sys2Proof.Machine
end

