-- ==== Sys2Proof/Machine/Ports.lean ====
section
/-! DEFINITION. The ports: the input ports of one instant as event words in the order of spec/20_memory.md R59, and the output ports of spec/10_state.md R40. Reading a port is a function of the state and changes nothing (20 R57). -/
namespace Sys2Proof.Machine

/-- The transactions requested at one instant, in the order KWF performs them: RESET, EDGE, ARM, POLL (R59). Each CLK
transition is one EDGE (R39, D37). R39 gives the port RESET as "strobe/level" and does not say what a level held over
several instants does: here every sample that shows it requests one RESET (DESIGN CHOICE, log entry 13). -/
def PortSample.requests (p : PortSample) : List EventWord :=
  (if p.reset then [eventWord 0b11 false false 0] else []) ++
  (match p.clk with
    | some lvl => [eventWord 0b00 lvl p.data p.now]
    | none => []) ++
  (if p.arm then [eventWord 0b10 false p.armVal 0] else []) ++
  (if p.poll then [pollWord p.tsAck p.now] else [])

/-- The requests of an instant join the total order after those of earlier instants (R58). -/
def State.acceptPorts (s : State) (p : PortSample) : State := { s with pending := s.pending ++ p.requests }

/-- A word as a port shows it: its length and `MAX_BITS` data bits; bit `i` is position `i`, and positions at or above
the length read 0 (R40, R51). -/
structure WordPort where
  length : BitVec 8
  data   : BitVec 200
deriving DecidableEq, Repr

/-- The port form of a bit sequence. -/
def wordPort (w : Bits) : WordPort := ⟨BitVec.ofNat 8 w.length, BitVec.ofNat 200 (fieldValue w.reverse)⟩

/-- The time-sync port (R46). -/
structure TimeSyncPort where
  valid  : Bool
  year   : BitVec 16
  month  : BitVec 16
  day    : BitVec 16
  hour   : BitVec 16
  minute : BitVec 16
  ok     : Bool
deriving DecidableEq, Repr

/-- All output ports of R40. -/
structure OutputPorts where
  result       : BitVec 2
  cmdP         : Byte
  cmdK         : Byte
  evP          : PanelEvent
  evK          : KeypadEvent
  dstatP       : BitVec 4
  dstatK       : BitVec 4
  wordP        : WordPort
  wordK        : WordPort
  prevP        : WordPort
  prevK        : WordPort
  lastDataTs   : Word
  lastStatusTs : Word
  status       : Bool
  ts           : TimeSyncPort
  flags        : BitVec 7
  dataOut      : PinDrive
deriving DecidableEq, Repr

/-- What the output ports show in a state (R40). `bld`, `lastEdgeTs` and `edgeInterval` have no port (R44). -/
def outputs (s : State) : OutputPorts where
  result := resultView s
  cmdP := s.cmdOutP
  cmdK := s.cmdOutK
  evP := s.evP
  evK := s.evK
  dstatP := s.dstatP.code
  dstatK := s.dstatK.code
  wordP := wordPort s.cmpP
  wordK := wordPort s.cmpK
  prevP := wordPort s.prvP
  prevK := wordPort s.prvK
  lastDataTs := s.lastDataTs
  lastStatusTs := s.lastStatusTs
  status := s.statusLed
  ts := ⟨s.tsValid, s.tsYear, s.tsMonth, s.tsDay, s.tsHour, s.tsMinute, s.tsOk⟩
  flags := flagsView s
  dataOut := s.dataOut

end Sys2Proof.Machine
end

