-- ==== Sys2Proof/Safety.lean ====
section
/-! DEFINITION. What counts as a sound state and a safe step of KWF, and the terms the claims use: the invariants of spec/10_state.md R45 (with the capacity of `prv`, R24), the absence of a fault (spec/60_exceptions.md R220), the conditions under which a command word is accepted (spec/43_panel_decode.md R161 to R164, spec/44_keypad_decode.md R200, R201), and the four kinds of transaction (spec/10_state.md R42). -/
namespace Sys2Proof.Machine

/-- The invariants of R45 that are not already types: `result` has two bits and `DStat` has the eight legal codes. -/
structure State.Inv (s : State) : Prop where
  bldP_fits : s.bldP.length ≤ 200
  bldK_fits : s.bldK.length ≤ 200
  cmpP_fits : s.cmpP.length ≤ 200
  cmpK_fits : s.cmpK.length ≤ 200
  prvP_fits : s.prvP.length ≤ 200
  prvK_fits : s.prvK.length ≤ 200
  cmpP_long : s.cmpP = [] ∨ 8 ≤ s.cmpP.length
  prvP_named : s.prvP = [] ∨ (8 ≤ s.prvP.length ∧ true ∈ s.prvP.take 8)
  prvK_heard : s.prvK = [] ∨ false ∈ s.prvK

/-- The statuses each role's decoder can give (the column "role" of R221). -/
structure State.StatusesLegal (s : State) : Prop where
  panel : s.dstatP ≠ .noise
  keypad : s.dstatK ≠ .unknownCommand ∧ s.dstatK ≠ .duplicate ∧ s.dstatK ≠ .checksumMismatch

/-- A panel word is accepted: it is no duplicate, it passes the checksum gate where there is one, and each of the
given fields lies inside it (R161, R163, R164). Its code is non-zero (R162) where the statement names the code. -/
def PanelAccepts (w : Bits) (fields : List (Nat × Nat)) (s : State) : Prop :=
  w ≠ s.prvP ∧ (s.cfg.checksumStrict = true → validate s.cfg.ckDataOffset w = true) ∧
    ∀ f ∈ fields, f.1 + f.2 ≤ w.length

/-- A keypad word is accepted: it holds a 0 bit, and its two bytes lie inside it (R200, R201). -/
def KeypadAccepts (w : Bits) (s : State) : Prop :=
  false ∈ w ∧ 8 ≤ w.length ∧ s.cfg.kpByte2Off + 8 ≤ w.length

/-- The guard of POLL (R141). -/
def PollPasses (s : State) : Prop :=
  s.cfg.tBoundary + s.cfg.mFramer < s.edgeInterval.toNat ∧ 8 ≤ s.bldP.length

/-- The gap that an edge at `now` ends exceeds the capture threshold (R121). -/
abbrev GapAt (now : Word) (s : State) : Prop := s.cfg.tBoundary - s.cfg.mCapture < (now - s.lastEdgeTs).toNat

/-- The kinds of transaction of R14. -/
inductive Transaction where
  | edge | poll | arm | reset
deriving DecidableEq, Repr

/-- The transaction an event is; a panel or keypad row is none by itself. -/
def transactionOf : Instr → Option Transaction
  | .rise _ _ => some .edge
  | .fall _ _ => some .edge
  | .poll _ _ => some .poll
  | .arm _ => some .arm
  | .reset => some .reset
  | .pNull _ => none
  | .pStatus _ _ => none
  | .pDatetime _ _ _ => none
  | .pZoneA _ _ => none
  | .pZoneB _ _ => none
  | .pZoneC _ _ => none
  | .pZoneD _ _ => none
  | .pLabel11 _ _ => none
  | .pLabel0A _ _ => none
  | .pLabel5D _ _ => none
  | .pLabel63 _ _ => none
  | .pLabel64 _ _ => none
  | .pLabel69 _ _ => none
  | .pLabel39 _ _ => none
  | .pLabelB1 _ _ => none
  | .pRaw _ _ _ => none
  | .kNoise _ => none
  | .kButton _ _ => none
  | .kFire _ _ => none
  | .kAux _ _ => none
  | .kPanic _ _ => none
  | .kOther _ _ => none

/-- The four registers no rule reads: the drop flags (R25), `prv[K]` (R211) and `lastDataTs` (R30), overwritten. -/
def State.withDiagnostics (s : State) (dP dK : Bool) (pK : Bits) (ts : Word) : State :=
  { s with dropP := dP, dropK := dK, prvK := pK, lastDataTs := ts }

end Sys2Proof.Machine
end

