-- ==== Sys2Proof/Certificates/Slice0/Obligations.lean ====
section
/-! DEFINITION. The statements for the provers, from the numbered rules of spec/. -/

open Sys2Proof Sys2Proof.Machine

/-! ## Encodings -/

/-- R71, whole: what each event word decodes to, and that a model refuses an ill-formed one.
(The spec marks this as its own decision D35.) -/
def Obligations.EventWordsDecodeByKind : Prop :=
  ∀ e : EventWord,
    let kind := e.extractLsb' 34 2
    let lvl := e.getLsbD 33
    let d := e.getLsbD 32
    let now := e.extractLsb' 0 32
    (kind = 0 ∧ lvl = true → decodeEvent e = .ok (.rise d now)) ∧
    (kind = 0 ∧ lvl = false → decodeEvent e = .ok (.fall d now)) ∧
    (kind = 1 ∧ lvl = false → decodeEvent e = .ok (.poll d now)) ∧
    (kind = 2 ∧ lvl = false → decodeEvent e = .ok (.arm d)) ∧
    (kind = 3 ∧ lvl = false ∧ d = false → decodeEvent e = .ok .reset) ∧
    (kind ≠ 0 ∧ lvl = true ∨ kind = 3 ∧ d = true →
      decodeEvent e = .error (.reservedBit e) ∧
      ∀ (s : State) (rest : List EventWord), s.cfg.wf = true → s.pending = e :: rest →
        step s = .refused (.illFormedEvent e))

/-- The event words of spec/95_test_vectors.md section 2.1, and one command word of each kind from its encoding. -/
def Obligations.SpecWordsDecodeToTheirInstructions : Prop :=
  decodeEvent 0x312345678 = .ok (.rise true 0x12345678) ∧
  decodeEvent 0x2FFFFFFFF = .ok (.rise false 0xFFFFFFFF) ∧
  decodeEvent 0x100003E80 = .ok (.fall true 16000) ∧
  decodeEvent 0x000004A38 = .ok (.fall false 19000) ∧
  decodeEvent 0x40000D548 = .ok (.poll false 54600) ∧
  decodeEvent 0x5000138E4 = .ok (.poll true 80100) ∧
  decodeEvent 0x900000000 = .ok (.arm true) ∧
  decodeEvent 0x800000000 = .ok (.arm false) ∧
  decodeEvent 0xC00000000 = .ok .reset ∧
  decodeEvent 0x600000005 = .error (.reservedBit 0x600000005) ∧
  decodeEvent 0xD00000000 = .error (.reservedBit 0xD00000000) ∧
  decodePanel [false, false, false, true, false, false, false, true] 7 false = .ok (.pLabel11 [] 7) ∧
  decodePanel [false, false, false, false, false, true, false, true, true] 7 false = .ok (.pStatus [true] 7) ∧
  decodePanel [true, false, false, true, true, false, false, true] 7 false = .ok (.pRaw 0x99 [] 7) ∧
  decodeKeypad Config.testConfig [true, true, true, true, true, true, true, true, false] 7 = .kButton [false] 7 ∧
  decodeKeypad Config.testConfig [true, true, true] 7 = .kNoise 3

/-- Decoding the encoding of a well-formed instruction gives it back, with every operand. -/
def Obligations.DecodeOfEncodeIsTheInstruction : Prop :=
  ∀ (c : Config) (i : Instr), i.wf c = true → decode c (encode c i) = .ok i

/-- What decodes is the encoding of its instruction, but for the bits the instruction does not use, which are encoded as 0.
An event word loses bits 31..0 of ARM and RESET, which R70 ignores. A framed word loses nothing itself. The event word of
its POLL loses TSYNC's answer (bit 32) for every row but P_DATETIME, and the time (bits 31..0) too for P_NULL and K_NOISE:
that these are no operands of the rows is the model's choice (log entry 4). -/
def Obligations.EncodeOfDecodeIsTheEncoding : Prop :=
  ∀ (c : Config) (i : Instr),
    (∀ e : EventWord, decode c (.event e) = .ok i →
      encode c i = .event (if e.getLsbD 35 = true then e &&& 0xF00000000 else e)) ∧
    (∀ (p : EventWord) (w : Bits), decode c (.panel p w) = .ok i →
      encode c i = .panel (p &&& (if w.take 8 = byteBits 0xa5 then 0xFFFFFFFFF
        else if w.take 8 = byteBits 0x00 then 0xE00000000 else 0xEFFFFFFFF)) w) ∧
    (∀ (p : EventWord) (w : Bits), decode c (.keypad p w) = .ok i →
      encode c i = .keypad (p &&& (if false ∈ w then 0xEFFFFFFFF else 0xE00000000)) w)

/-! ## The step -/

/-- A step runs the decoded event, with the event taken from the pending ones; with nothing requested, a step changes
nothing. Both the pending events and the idle step are the model's choice (log entry 1). -/
def Obligations.StepRunsTheRequestedEvent : Prop :=
  ∀ s : State, s.cfg.wf = true →
    (∀ (e : EventWord) (rest : List EventWord) (i : Instr), s.pending = e :: rest → decodeEvent e = .ok i →
      step s = exec i { s with pending := rest }) ∧
    (s.pending = [] → step s = .next s)

/-- R140, R143 to R146: a POLL that passes its guard promotes the panel word, clears the messages, runs the row the panel
word decodes to (it always decodes, and to no transaction) and then the row the keypad word decodes to, and reports.
(That the two decoders' work is given as instructions, the rows, with operands of their own is the model's choice, log
entry 4. That okP and okK of R146 are read from the command outputs is the model's inference from R33, R183 and R209, log
entry 8; that the outputs are written on every guard pass the spec marks as its own decision D16.) -/
def Obligations.PollRunsTheDecodedWords : Prop :=
  ∀ (a : Bool) (now : Word) (s : State), PollPasses s →
    ∃ i, decodePanel s.bldP now a = .ok i ∧ transactionOf i = none ∧
    exec (.poll a now) s =
      andThen (exec i { s with
        tsValid := false
        statusLed := s.statusSeen && decide ((now - s.lastStatusTs).toNat ≤ 500000)
        cmpP := s.bldP
        bldP := []
        dropP := false
        evP := .none
        evK := .none }) fun s2 =>
      andThen (exec (decodeKeypad s.cfg s.cmpK now) s2) fun s3 =>
      .next { s3 with
        result := BitVec.ofNat 2 ((if s3.cmdOutK ≠ 0 then 2 else 0) + (if s3.cmdOutP ≠ 0 then 1 else 0)) }

/-- R8: exactly the configurations that break a constraint are refused. -/
def Obligations.BrokenConfigurationsAreRefused : Prop :=
  ∀ s : State,
    let c := s.cfg
    step s = .refused .badConfiguration ↔
      (c.tBoundary < c.mCapture ∨ 2 ^ 32 ≤ c.tBoundary + c.mFramer ∨
        (∃ f ∈ [(c.stOffReady, 1), (c.stOffError, 1), (c.stOffBypass, 1), (c.stOffMemory, 1), (c.stOffArmed, 1),
            (c.stOffProgram, 1), (c.stOffPowerFail, 1), (c.dtY1Off, c.dtY1W), (c.dtY2Off, c.dtY2W),
            (c.dtMonOff, c.dtMonW), (c.dtDayOff, c.dtDayW), (c.dtHourOff, c.dtHourW), (c.dtMinOff, c.dtMinW),
            (c.dtArmOff, 2), (c.dtMasterOff, 1), (c.dtUserOff, 6), (c.zoneOff27, 8), (c.zoneOff2D, 8),
            (c.zoneOff34, 8), (c.zoneOff3E, 8), (c.kpByte2Off, 8)], 200 < f.1 + f.2) ∨
        (∃ w ∈ [c.dtY1W, c.dtY2W, c.dtMonW, c.dtDayW, c.dtHourW, c.dtMinW], w < 1 ∨ 16 < w))

/-- R59: the requests of one instant are performed in the order RESET, EDGE, ARM, POLL. That the port RESET, strobe or
level, requests one RESET at each instant that shows it is the model's choice (log entry 13).
(The spec marks this as its own decision D2; the pending list is log entry 1.) -/
def Obligations.SimultaneousRequestsAreOrdered : Prop :=
  ∀ (p : PortSample) (s : State),
    (s.acceptPorts p).pending = s.pending ++ p.requests ∧
    p.requests.map decodeEvent =
      (if p.reset = true then [Except.ok Instr.reset] else []) ++
      (if p.clk = some true then [Except.ok (Instr.rise p.data p.now)] else []) ++
      (if p.clk = some false then [Except.ok (Instr.fall p.data p.now)] else []) ++
      (if p.arm = true then [Except.ok (Instr.arm p.armVal)] else []) ++
      (if p.poll = true then [Except.ok (Instr.poll p.tsAck p.now)] else [])

/-! ## RESET and ARM -/

/-- R250, R43 and R251: RESET gives every register its reset value, whatever it held, and its event word decodes to it; the
power-on state is the one that RESET leaves. The configuration is no register, later requests stay requested, and which
configuration State.reset holds is the model's choice (log entries 1 and 2).
(The spec marks this as its own decision D11.) -/
def Obligations.ResetRestoresEveryRegister : Prop :=
  (∀ s : State, exec .reset s = .next
    { cfg := s.cfg, pending := s.pending, bldP := [], bldK := [], cmpP := [], cmpK := [], prvP := [], prvK := []
      dropP := false, dropK := false, lastEdgeTs := 0, edgeInterval := 0, lastStatusTs := 0, statusSeen := false
      lastDataTs := 0, captureArmed := false, result := 0, cmdOutP := 0, cmdOutK := 0, dstatP := .none
      dstatK := .none, evP := .none, evK := .none, statusLed := false, tsValid := false, tsYear := 0, tsMonth := 0
      tsDay := 0, tsHour := 0, tsMinute := 0, tsOk := false, dataOut := .released }) ∧
  (∀ now : Word, decodeEvent (eventWord 0b11 false false now) = .ok .reset) ∧
  ∀ s : State, exec .reset { s with cfg := State.reset.cfg, pending := [] } = .next State.reset

/-- R126: ARM writes `captureArmed` and nothing else; bits 31..0 of its event word are ignored.
(The spec marks this as its own decision D29.) -/
def Obligations.ArmWritesOnlyCaptureArmed : Prop :=
  ∀ (v : Bool) (s : State), exec (.arm v) s = .next { s with captureArmed := v } ∧
    ∀ ignored : Word, decodeEvent (eventWord 0b10 false v ignored) = .ok (.arm v)

/-! ## EDGE -/

/-- R125: a disarmed EDGE changes nothing.
(The spec marks this as its own decision D29.) -/
def Obligations.DisarmedEdgesChangeNothing : Prop :=
  ∀ (d : Bool) (now : Word) (s : State), s.captureArmed = false →
    exec (.rise d now) s = .next s ∧ exec (.fall d now) s = .next s

/-- R122: a RISE word decodes to RISE; an armed RISE stores the interval, promotes the keypad role after a gap, and appends its bit to `bld[P]`,
or drops it. Nothing else changes. -/
def Obligations.RiseCapturesAPanelBit : Prop :=
  ∀ (d : Bool) (now : Word), decodeEvent (eventWord 0b00 true d now) = .ok (.rise d now) ∧
    ∀ s : State, s.captureArmed = true → exec (.rise d now) s = .next { s with
      lastEdgeTs := now
      edgeInterval := now - s.lastEdgeTs
      cmpK := if GapAt now s then s.bldK else s.cmpK
      bldK := if GapAt now s then [] else s.bldK
      dropK := if GapAt now s then false else s.dropK
      bldP := if s.bldP.length < 200 then s.bldP ++ [d] else s.bldP
      dropP := if s.bldP.length < 200 then s.dropP else true }

/-- R123: a FALL word decodes to FALL; an armed FALL stores the interval, promotes the keypad role after a gap, and then appends its bit to
`bld[K]`, or drops it. Nothing else changes. -/
def Obligations.FallCapturesAKeypadBit : Prop :=
  ∀ (d : Bool) (now : Word), decodeEvent (eventWord 0b00 false d now) = .ok (.fall d now) ∧
    ∀ s : State, s.captureArmed = true →
    (GapAt now s → exec (.fall d now) s = .next { s with
      lastEdgeTs := now
      edgeInterval := now - s.lastEdgeTs
      cmpK := s.bldK
      bldK := [d]
      dropK := false }) ∧
    (¬ GapAt now s → exec (.fall d now) s = .next { s with
      lastEdgeTs := now
      edgeInterval := now - s.lastEdgeTs
      bldK := if s.bldK.length < 200 then s.bldK ++ [d] else s.bldK
      dropK := if s.bldK.length < 200 then s.dropK else true })

/-- R128: the interval of an armed EDGE a real time `g` after the last one is `g` modulo `2^32`.
(The spec marks this as its own decision D3.) -/
def Obligations.EdgeIntervalsWrapAround : Prop :=
  ∀ (d : Bool) (g : Nat) (s : State), s.captureArmed = true →
    let now := s.lastEdgeTs + BitVec.ofNat 32 g
    (∃ t, exec (.rise d now) s = .next t ∧ t.edgeInterval.toNat = g % 2 ^ 32 ∧ t.lastEdgeTs = now) ∧
    (∃ t, exec (.fall d now) s = .next t ∧ t.edgeInterval.toNat = g % 2 ^ 32 ∧ t.lastEdgeTs = now)

/-- R130: EDGE writes only its seven registers, and what it writes depends only on them, on `captureArmed` and on the
parameters. -/
def Obligations.EdgesReadAndWriteOnlyTheirRegisters : Prop :=
  ∀ (i : Instr), transactionOf i = some .edge →
    (∀ s : State, ∃ t, exec i s = .next t ∧
      t = { s with
        lastEdgeTs := t.lastEdgeTs, edgeInterval := t.edgeInterval, bldP := t.bldP, bldK := t.bldK, cmpK := t.cmpK
        dropP := t.dropP, dropK := t.dropK }) ∧
    (∀ s s' t t' : State, exec i s = .next t → exec i s' = .next t' →
      s.cfg = s'.cfg → s.captureArmed = s'.captureArmed → s.lastEdgeTs = s'.lastEdgeTs →
      s.edgeInterval = s'.edgeInterval → s.bldP = s'.bldP → s.bldK = s'.bldK → s.cmpK = s'.cmpK →
      s.dropP = s'.dropP → s.dropK = s'.dropK →
      t.lastEdgeTs = t'.lastEdgeTs ∧ t.edgeInterval = t'.edgeInterval ∧ t.bldP = t'.bldP ∧ t.bldK = t'.bldK ∧
      t.cmpK = t'.cmpK ∧ t.dropP = t'.dropP ∧ t.dropK = t'.dropK)

/-- R67 and R124: an append never disturbs an earlier bit and never grows a sequence past the capacity; a dropped one
leaves the sequence as it was and sets the drop flag. -/
def Obligations.AppendsKeepEarlierBits : Prop :=
  ∀ (r : Role) (d : Bool) (s : State),
    let old := match r with | .panel => s.bldP | .keypad => s.bldK
    let t := appendBit r d s
    let new := match r with | .panel => t.bldP | .keypad => t.bldK
    let flag := match r with | .panel => t.dropP | .keypad => t.dropK
    old <+: new ∧ (old.length < 200 → new = old ++ [d] ∧ new.length ≤ 200) ∧
    (200 ≤ old.length → new = old ∧ flag = true)

/-! ## POLL -/

/-- R147: a POLL whose guard fails writes only `tsValid`, `statusLed` and `result`.
(The spec marks this as its own decision D15.) -/
def Obligations.GuardFailureWritesOnlyThreeRegisters : Prop :=
  ∀ (a : Bool) (now : Word) (s : State), ¬ PollPasses s →
    exec (.poll a now) s = .next { s with
      tsValid := false
      statusLed := s.statusSeen && decide ((now - s.lastStatusTs).toNat ≤ 500000)
      result := 0 }

/-- R142: every POLL sets the indicator from `statusSeen` and `lastStatusTs` as they stood before its decode.
(The spec marks this as its own decision D12 and D13.) -/
def Obligations.EveryPollUpdatesTheIndicator : Prop :=
  ∀ (a : Bool) (now : Word) (s : State), ∃ t, exec (.poll a now) s = .next t ∧
    (t.statusLed = true ↔ s.statusSeen = true ∧ (now - s.lastStatusTs).toNat ≤ 500000) ∧
    (outputs t).status = t.statusLed

/-- R143 and R146: on a guard pass the panel word is promoted and its building sequence emptied, and the result says
which decoder returned a non-zero code; R183 and R209: both decoders write their outputs.
(That the outputs are written on every guard pass the spec marks as its own decision D16. That okP and okK are read from
the command outputs is the model's inference from R183 and R209, log entry 8.) -/
def Obligations.GuardPassPromotesAndReports : Prop :=
  ∀ (a : Bool) (now : Word) (s : State), PollPasses s → ∃ t, exec (.poll a now) s = .next t ∧
    t.cmpP = s.bldP ∧ t.bldP = [] ∧ t.dropP = false ∧
    t.result.toNat = (if t.cmdOutP ≠ 0 then 1 else 0) + 2 * (if t.cmdOutK ≠ 0 then 1 else 0) ∧
    t.dstatP ≠ .none ∧ t.dstatK ≠ .none

/-- What no POLL writes (R42): the capture registers of the keypad role, the edge times, the arming, and everything that
is no register of POLL. -/
def Obligations.PollFrame : Prop :=
  ∀ (a : Bool) (now : Word) (s t : State), exec (.poll a now) s = .next t →
    t.bldK = s.bldK ∧ t.cmpK = s.cmpK ∧ t.dropK = s.dropK ∧ t.lastEdgeTs = s.lastEdgeTs ∧
    t.edgeInterval = s.edgeInterval ∧ t.captureArmed = s.captureArmed ∧ t.dataOut = s.dataOut ∧ t.cfg = s.cfg ∧
    t.pending = s.pending

/-- R149: after a guard pass, the next POLL finds nothing to process. -/
def Obligations.SecondPollFindsNothing : Prop :=
  ∀ (a a' : Bool) (now now' : Word) (s t : State), PollPasses s → exec (.poll a now) s = .next t →
    exec (.poll a' now') t = .next { t with
      tsValid := false
      statusLed := t.statusSeen && decide ((now' - t.lastStatusTs).toNat ≤ 500000)
      result := 0 }

/-- R46: after a POLL, `tsValid` is 1 exactly when this POLL committed a 0xa5 word, and then `tsOk` is TSYNC's answer;
else the fields of the port hold their values.
(The spec marks this as its own decision D28.) -/
def Obligations.TimeSyncPulseLastsOnePoll : Prop :=
  ∀ (a : Bool) (now : Word) (s : State), ∃ t, exec (.poll a now) s = .next t ∧
    (t.tsValid = true ↔ PollPasses s ∧ t.cmdOutP = 0xa5) ∧
    (t.tsValid = true → t.tsOk = a ∧ ∃ y mo d h mi arm master user,
      t.evP = .datetime y mo d h mi arm master user ∧
      t.tsYear.toNat = y % 65536 ∧ t.tsMonth.toNat = mo % 65536 ∧ t.tsDay.toNat = d % 65536 ∧
      t.tsHour.toNat = h % 65536 ∧ t.tsMinute.toNat = mi % 65536) ∧
    (t.tsValid = false → t.tsYear = s.tsYear ∧ t.tsMonth = s.tsMonth ∧ t.tsDay = s.tsDay ∧ t.tsHour = s.tsHour ∧
      t.tsMinute = s.tsMinute ∧ t.tsOk = s.tsOk)

/-- R145: the order of the two decoders affects no final value. -/
def Obligations.DecoderOrderAffectsNothing : Prop :=
  ∀ (w v : Bits) (now : Word) (a : Bool) (s : State) (i : Instr), decodePanel w now a = .ok i →
    andThen (exec i s) (exec (decodeKeypad s.cfg v now)) = andThen (exec (decodeKeypad s.cfg v now) s) (exec i)

/-! ## Panel rows -/

/-- R77: the panel command map; the tail is any bits after the command byte. Duplicate suppression comes before it, for
every code. -/
def Obligations.PanelCodesSelectTheirRows : Prop :=
  ∀ (tail : Bits) (now : Word) (a : Bool),
    let row := fun code : Byte => decodePanel (byteBits code ++ tail) now a
    row 0x00 = .ok (.pNull tail) ∧ row 0x05 = .ok (.pStatus tail now) ∧ row 0xa5 = .ok (.pDatetime tail now a) ∧
    row 0x27 = .ok (.pZoneA tail now) ∧ row 0x2d = .ok (.pZoneB tail now) ∧ row 0x34 = .ok (.pZoneC tail now) ∧
    row 0x3e = .ok (.pZoneD tail now) ∧ row 0x11 = .ok (.pLabel11 tail now) ∧ row 0x0a = .ok (.pLabel0A tail now) ∧
    row 0x5d = .ok (.pLabel5D tail now) ∧ row 0x63 = .ok (.pLabel63 tail now) ∧ row 0x64 = .ok (.pLabel64 tail now) ∧
    row 0x69 = .ok (.pLabel69 tail now) ∧ row 0x39 = .ok (.pLabel39 tail now) ∧ row 0xb1 = .ok (.pLabelB1 tail now) ∧
    (∀ code : Byte,
      code ∉ [0x00, 0x05, 0xa5, 0x27, 0x2d, 0x34, 0x3e, 0x11, 0x0a, 0x5d, 0x63, 0x64, 0x69, 0x39, 0xb1] →
      row code = .ok (.pRaw code tail now)) ∧
    ∀ (code : Byte) (i : Instr) (s : State), row code = .ok i → byteBits code ++ tail = s.prvP →
      exec i s = .next { s with cmdOutP := 0, dstatP := .duplicate }

/-- R161: a panel word equal to `prv[P]` is rejected, whatever its code. -/
def Obligations.DuplicatePanelWordsAreRejected : Prop :=
  ∀ (now : Word) (a : Bool) (s : State) (i : Instr), decodePanel s.prvP now a = .ok i →
    exec i s = .next { s with cmdOutP := 0, dstatP := .duplicate }

/-- R162: P_NULL is rejected. (A null word that equals `prv[P]`, which no run reaches, is a duplicate first: R160.) -/
def Obligations.NullCommandsAreRejected : Prop :=
  ∀ (tail : Bits) (s : State),
    (byteBits 0x00 ++ tail ≠ s.prvP → exec (.pNull tail) s = .next { s with cmdOutP := 0, dstatP := .nullCommand }) ∧
    (byteBits 0x00 ++ tail = s.prvP → exec (.pNull tail) s = .next { s with cmdOutP := 0, dstatP := .duplicate })

/-- R163: in strict mode a word that is neither duplicate nor null and fails the checksum is rejected; without strict mode
no word is rejected for its checksum.
(The spec marks this as its own decision D18.) -/
def Obligations.ChecksumGatesInStrictModeOnly : Prop :=
  ∀ (w : Bits) (now : Word) (a : Bool) (s : State) (i : Instr), decodePanel w now a = .ok i →
    (s.cfg.checksumStrict = true → w ≠ s.prvP → true ∈ w.take 8 → validate s.cfg.ckDataOffset w = false →
      exec i s = .next { s with cmdOutP := 0, dstatP := .checksumMismatch }) ∧
    (s.cfg.checksumStrict = false → ∃ t, exec i s = .next t ∧ t.dstatP ≠ .checksumMismatch)

/-- R164: a word too short for a field of its branch is rejected, and nothing else is written.
(The spec marks this as its own decision D17.) -/
def Obligations.ShortPanelWordsAreRejected : Prop :=
  ∀ (tail : Bits) (now : Word) (a : Bool) (s : State),
    let c := s.cfg
    let rejected := Host.Outcome.next (φ := Fault) (ρ := Refusal) { s with cmdOutP := 0, dstatP := .indexOutOfRange }
    let short := fun (code : Byte) (fields : List (Nat × Nat)) =>
      byteBits code ++ tail ≠ s.prvP ∧
      (c.checksumStrict = true → validate c.ckDataOffset (byteBits code ++ tail) = true) ∧
      ∃ f ∈ fields, 8 + tail.length < f.1 + f.2
    (short 0x05 [(c.stOffReady, 1), (c.stOffError, 1), (c.stOffBypass, 1), (c.stOffMemory, 1), (c.stOffArmed, 1),
      (c.stOffProgram, 1), (c.stOffPowerFail, 1)] → exec (.pStatus tail now) s = rejected) ∧
    (short 0xa5 [(c.dtY1Off, c.dtY1W), (c.dtY2Off, c.dtY2W), (c.dtMonOff, c.dtMonW), (c.dtDayOff, c.dtDayW),
      (c.dtHourOff, c.dtHourW), (c.dtMinOff, c.dtMinW), (c.dtArmOff, 2), (c.dtMasterOff, 1), (c.dtUserOff, 6)] →
      exec (.pDatetime tail now a) s = rejected) ∧
    (short 0x27 [(c.zoneOff27, 8)] → exec (.pZoneA tail now) s = rejected) ∧
    (short 0x2d [(c.zoneOff2D, 8)] → exec (.pZoneB tail now) s = rejected) ∧
    (short 0x34 [(c.zoneOff34, 8)] → exec (.pZoneC tail now) s = rejected) ∧
    (short 0x3e [(c.zoneOff3E, 8)] → exec (.pZoneD tail now) s = rejected)

/-- R166: an accepted status word records its time and reports its seven flags. -/
def Obligations.StatusWordsAreDecoded : Prop :=
  ∀ (tail : Bits) (now : Word) (s : State),
    let c := s.cfg
    let w := byteBits 0x05 ++ tail
    PanelAccepts w [(c.stOffReady, 1), (c.stOffError, 1), (c.stOffBypass, 1), (c.stOffMemory, 1), (c.stOffArmed, 1),
      (c.stOffProgram, 1), (c.stOffPowerFail, 1)] s →
    exec (.pStatus tail now) s = .next { s with
      lastDataTs := now
      prvP := w
      lastStatusTs := now
      statusSeen := true
      evP := .status (w.getD c.stOffReady false) (w.getD c.stOffError false) (w.getD c.stOffBypass false)
        (w.getD c.stOffMemory false) (w.getD c.stOffArmed false) (w.getD c.stOffProgram false)
        (w.getD c.stOffPowerFail false)
      cmdOutP := 0x05
      dstatP := .ok }

/-- R168: an accepted date/time word reports its fields, the year and the user code, and drives the time-sync port.
(The spec marks this as its own decision D22, D23 and D28.) -/
def Obligations.DatetimeWordsAreDecoded : Prop :=
  ∀ (tail : Bits) (now : Word) (a : Bool) (s : State) (y1 y2 month day hour minute arm uraw : Nat),
    let c := s.cfg
    let w := byteBits 0xa5 ++ tail
    PanelAccepts w [(c.dtMasterOff, 1)] s →
    extract w c.dtY1Off c.dtY1W = .ok y1 → extract w c.dtY2Off c.dtY2W = .ok y2 →
    extract w c.dtMonOff c.dtMonW = .ok month → extract w c.dtDayOff c.dtDayW = .ok day →
    extract w c.dtHourOff c.dtHourW = .ok hour → extract w c.dtMinOff c.dtMinW = .ok minute →
    extract w c.dtArmOff 2 = .ok arm → extract w c.dtUserOff 6 = .ok uraw →
    exec (.pDatetime tail now a) s = .next { s with
      lastDataTs := now
      prvP := w
      evP := .datetime (100 * y1 + y2) month day hour minute (BitVec.ofNat 2 arm) (w.getD c.dtMasterOff false)
        (remapUser c (BitVec.ofNat 2 arm) uraw)
      tsValid := true
      tsYear := BitVec.ofNat 16 (100 * y1 + y2)
      tsMonth := BitVec.ofNat 16 month
      tsDay := BitVec.ofNat 16 day
      tsHour := BitVec.ofNat 16 hour
      tsMinute := BitVec.ofNat 16 minute
      tsOk := a
      cmdOutP := 0xa5
      dstatP := .ok }

/-- R170 to R173: an accepted zone word reports its bitmap, the zones of its group, and ready for an empty bitmap. -/
def Obligations.ZoneWordsAreDecoded : Prop :=
  ∀ (tail : Bits) (now : Word) (s : State) (v : Nat),
    let c := s.cfg
    let reported := fun (code : Byte) (g : ZoneGroup) (base : Nat) =>
      Host.Outcome.next (φ := Fault) (ρ := Refusal) { s with
        lastDataTs := now
        prvP := byteBits code ++ tail
        evP := .zones g (BitVec.ofNat 8 v) (zonesOf (BitVec.ofNat 8 v) base) (decide (BitVec.ofNat 8 v = 0))
        cmdOutP := code
        dstatP := .ok }
    let accepted := fun (code : Byte) (off : Nat) =>
      PanelAccepts (byteBits code ++ tail) [] s ∧ extract (byteBits code ++ tail) off 8 = .ok v
    (accepted 0x27 c.zoneOff27 → exec (.pZoneA tail now) s = reported 0x27 .a 0) ∧
    (accepted 0x2d c.zoneOff2D → exec (.pZoneB tail now) s = reported 0x2d .b 8) ∧
    (accepted 0x34 c.zoneOff34 → exec (.pZoneC tail now) s = reported 0x34 .c 16) ∧
    (accepted 0x3e c.zoneOff3E → exec (.pZoneD tail now) s = reported 0x3e .d 24)

/-- R174 to R181: an accepted word of a single-meaning code reports the code. -/
def Obligations.LabelWordsAreDecoded : Prop :=
  ∀ (tail : Bits) (now : Word) (s : State),
    let accepted := fun (code : Byte) => PanelAccepts (byteBits code ++ tail) [] s
    let reported := fun (code : Byte) => Host.Outcome.next (φ := Fault) (ρ := Refusal) { s with
      lastDataTs := now
      prvP := byteBits code ++ tail
      evP := .label code
      cmdOutP := code
      dstatP := .ok }
    (accepted 0x11 → exec (.pLabel11 tail now) s = reported 0x11) ∧
    (accepted 0x0a → exec (.pLabel0A tail now) s = reported 0x0a) ∧
    (accepted 0x5d → exec (.pLabel5D tail now) s = reported 0x5d) ∧
    (accepted 0x63 → exec (.pLabel63 tail now) s = reported 0x63) ∧
    (accepted 0x64 → exec (.pLabel64 tail now) s = reported 0x64) ∧
    (accepted 0x69 → exec (.pLabel69 tail now) s = reported 0x69) ∧
    (accepted 0x39 → exec (.pLabel39 tail now) s = reported 0x39) ∧
    (accepted 0xb1 → exec (.pLabelB1 tail now) s = reported 0xb1)

/-- R182: an accepted word of any code R77 does not name is a success with an empty detail. -/
def Obligations.RawWordsAreDecoded : Prop :=
  ∀ (code : Byte) (tail : Bits) (now : Word) (s : State),
    code ∉ [0x00, 0x05, 0xa5, 0x27, 0x2d, 0x34, 0x3e, 0x11, 0x0a, 0x5d, 0x63, 0x64, 0x69, 0x39, 0xb1] →
    PanelAccepts (byteBits code ++ tail) [] s →
    exec (.pRaw code tail now) s = .next { s with
      lastDataTs := now
      prvP := byteBits code ++ tail
      evP := .raw code
      cmdOutP := code
      dstatP := .unknownCommand }

/-- R183: an accepted panel word returns its code, which is never 0, and is committed; a rejected one returns 0 and
commits nothing. -/
def Obligations.PanelReturnValueTellsAcceptance : Prop :=
  ∀ (w : Bits) (now : Word) (a : Bool) (s : State) (i : Instr), decodePanel w now a = .ok i →
    ∃ t, exec i s = .next t ∧
      ((t.dstatP ∈ [DStat.ok, .unknownCommand] ∧ extract w 0 8 = .ok t.cmdOutP.toNat ∧ t.cmdOutP ≠ 0 ∧ t.prvP = w ∧
          t.lastDataTs = now) ∨
        (t.dstatP ∈ [DStat.duplicate, .nullCommand, .checksumMismatch, .indexOutOfRange] ∧
          t = { s with cmdOutP := 0, dstatP := t.dstatP }))

/-- What no panel row writes: the capture registers, the keypad role's outputs, the indicator and the result; the status
time only P_STATUS, the time-sync port only P_DATETIME. -/
def Obligations.PanelRowFrame : Prop :=
  ∀ (w : Bits) (now : Word) (a : Bool) (s t : State) (i : Instr), decodePanel w now a = .ok i → exec i s = .next t →
    t = { s with
      lastDataTs := t.lastDataTs, prvP := t.prvP, evP := t.evP, cmdOutP := t.cmdOutP, dstatP := t.dstatP
      lastStatusTs := t.lastStatusTs, statusSeen := t.statusSeen, tsValid := t.tsValid, tsYear := t.tsYear
      tsMonth := t.tsMonth, tsDay := t.tsDay, tsHour := t.tsHour, tsMinute := t.tsMinute, tsOk := t.tsOk } ∧
    (t.cmdOutP ≠ 0x05 → t.lastStatusTs = s.lastStatusTs ∧ t.statusSeen = s.statusSeen) ∧
    (t.cmdOutP ≠ 0xa5 → t.tsValid = s.tsValid ∧ t.tsYear = s.tsYear ∧ t.tsMonth = s.tsMonth ∧ t.tsDay = s.tsDay ∧
      t.tsHour = s.tsHour ∧ t.tsMinute = s.tsMinute ∧ t.tsOk = s.tsOk)

/-! ## Keypad rows -/

/-- R79: the row of a keypad word that is not noise. Its conditions are not exclusive; that the first one that holds names
the row is the model's choice (log entry 6), and so is the row of a word shorter than its code (log entry 7). What the
row does comes from every condition: the statements below. -/
def Obligations.KeypadCodesSelectTheirRows : Prop :=
  ∀ (c : Config) (now : Word),
    (∀ (code : Byte) (tail : Bits), false ∈ byteBits code ++ tail →
      let row := decodeKeypad c (byteBits code ++ tail) now
      (code = 0xff → row = .kButton tail now) ∧
      (code ≠ 0xff → code = c.kpCodeFire → row = .kFire tail now) ∧
      (code ∉ [0xff, c.kpCodeFire] → code = c.kpCodeAux → row = .kAux tail now) ∧
      (code ∉ [0xff, c.kpCodeFire, c.kpCodeAux] → code = c.kpCodePanic → row = .kPanic tail now) ∧
      (code ∉ [0xff, c.kpCodeFire, c.kpCodeAux, c.kpCodePanic] → row = .kOther (byteBits code ++ tail) now)) ∧
    ∀ w : Bits, false ∈ w → w.length < 8 → decodeKeypad c w now = .kOther w now

/-- R82 and the noise test of R200: a word of ones, the empty word too, is rejected before any field is read. -/
def Obligations.NoiseWordsAreRejected : Prop :=
  ∀ (n : Nat) (s : State),
    exec (.kNoise n) s = .next { s with cmdOutK := 0, dstatK := .noise } ∧
    ∀ (c : Config) (w : Bits) (now : Word), false ∉ w → decodeKeypad c w now = .kNoise w.length

/-- R201: a word that is not noise and is too short for its two bytes is rejected, and commits nothing.
(The spec marks this as its own decision D17.) -/
def Obligations.ShortKeypadWordsAreRejected : Prop :=
  ∀ (w : Bits) (now : Word) (s : State), false ∈ w → w.length < max 8 (s.cfg.kpByte2Off + 8) →
    exec (decodeKeypad s.cfg w now) s = .next { s with cmdOutK := 0, dstatK := .indexOutOfRange }

/-- R204: an accepted word of code 0xff looks its second byte up. -/
def Obligations.ButtonWordsAreDecoded : Prop :=
  ∀ (tail : Bits) (now : Word) (s : State) (v : Nat),
    let w := byteBits 0xff ++ tail
    KeypadAccepts w s → extract w s.cfg.kpByte2Off 8 = .ok v →
    exec (.kButton tail now) s = .next { s with
      lastDataTs := now
      prvK := w
      evK := .ke (match buttonTable s.cfg (BitVec.ofNat 8 v) with
          | some id => .known id
          | none => .unknown (BitVec.ofNat 8 v))
        ((if s.cfg.kpCodeFire = 0xff then [Extra.fire] else []) ++
          (if s.cfg.kpCodeAux = 0xff then [Extra.aux] else []) ++
          (if s.cfg.kpCodePanic = 0xff then [Extra.panic] else []))
      cmdOutK := 0xff
      dstatK := .ok }

/-- R205 to R207: an accepted word of an alarm code carries its label; where two of the codes are equal, both labels in
the order FIRE, AUX, PANIC; where the code is 0xff, the button too. R209: a word of code 0x00 is committed and reported,
with command output 0 and NULL_COMMAND (the spec marks this as its own decision D34). -/
def Obligations.AlarmWordsAreDecoded : Prop :=
  ∀ (tail : Bits) (now : Word) (s : State) (v : Nat),
    let c := s.cfg
    let reported := fun (code : Byte) (extras : List Extra) =>
      Host.Outcome.next (φ := Fault) (ρ := Refusal) { s with
        lastDataTs := now
        prvK := byteBits code ++ tail
        evK := .ke (if code = 0xff then
            (match buttonTable c (BitVec.ofNat 8 v) with
              | some id => .known id
              | none => .unknown (BitVec.ofNat 8 v))
          else .none) extras
        cmdOutK := code
        dstatK := if code = 0 then .nullCommand else .ok }
    let accepted := fun (code : Byte) =>
      KeypadAccepts (byteBits code ++ tail) s ∧ extract (byteBits code ++ tail) c.kpByte2Off 8 = .ok v
    (accepted c.kpCodeFire → exec (.kFire tail now) s = reported c.kpCodeFire
      ([Extra.fire] ++ (if c.kpCodeAux = c.kpCodeFire then [Extra.aux] else []) ++
        (if c.kpCodePanic = c.kpCodeFire then [Extra.panic] else []))) ∧
    (accepted c.kpCodeAux → exec (.kAux tail now) s = reported c.kpCodeAux
      ((if c.kpCodeFire = c.kpCodeAux then [Extra.fire] else []) ++ [Extra.aux] ++
        (if c.kpCodePanic = c.kpCodeAux then [Extra.panic] else []))) ∧
    (accepted c.kpCodePanic → exec (.kPanic tail now) s = reported c.kpCodePanic
      ((if c.kpCodeFire = c.kpCodePanic then [Extra.fire] else []) ++
        (if c.kpCodeAux = c.kpCodePanic then [Extra.aux] else []) ++ [Extra.panic]))

/-- R208 and R209: an accepted word of any other code is committed and reported without a detail; code 0x00 is committed
and returned, with NULL_COMMAND.
(The spec marks this as its own decision D34.) -/
def Obligations.OtherKeypadWordsAreDecoded : Prop :=
  ∀ (w : Bits) (now : Word) (s : State) (v : Nat), KeypadAccepts w s → extract w 0 8 = .ok v →
    BitVec.ofNat 8 v ∉ [0xff, s.cfg.kpCodeFire, s.cfg.kpCodeAux, s.cfg.kpCodePanic] →
    decodeKeypad s.cfg w now = .kOther w now ∧
    exec (.kOther w now) s = .next { s with
      lastDataTs := now
      prvK := w
      evK := .ke .none []
      cmdOutK := BitVec.ofNat 8 v
      dstatK := if v = 0 then .nullCommand else .ok }

/-- R211: an identical keypad word decoded in the next guard pass, which starts with the messages cleared (R144), is
reported again and committed again; rejected, it is rejected again, and its message stays cleared. -/
def Obligations.RepeatedKeypadWordsAreReportedAgain : Prop :=
  ∀ (w : Bits) (now now' : Word) (s t : State), exec (decodeKeypad s.cfg w now) s = .next t →
    ∃ t', exec (decodeKeypad s.cfg w now') (clearEvents t) = .next t' ∧
      t'.cmdOutK = t.cmdOutK ∧ t'.dstatK = t.dstatK ∧ t'.prvK = t.prvK ∧
      (t.dstatK ∈ [DStat.ok, .nullCommand] →
        t'.evK = t.evK ∧ t'.evK ≠ .none ∧ t'.prvK = w ∧ t'.lastDataTs = now') ∧
      (t.dstatK ∉ [DStat.ok, .nullCommand] → t'.evK = .none ∧ t'.lastDataTs = t.lastDataTs)

/-- What no keypad row writes. -/
def Obligations.KeypadRowFrame : Prop :=
  ∀ (w : Bits) (now : Word) (s t : State), exec (decodeKeypad s.cfg w now) s = .next t →
    t = { s with
      lastDataTs := t.lastDataTs, prvK := t.prvK, evK := t.evK, cmdOutK := t.cmdOutK, dstatK := t.dstatK } ∧
    (t.dstatK = .noise ∨ t.dstatK = .indexOutOfRange →
      t.lastDataTs = s.lastDataTs ∧ t.prvK = s.prvK ∧ t.evK = s.evK)

/-! ## The pure functions -/

/-- R100 to R102: in range, `extract` gives the number whose `k` binary digits, most significant first, are the
substring; out of range, and only there, it raises. -/
def Obligations.ExtractReadsMostSignificantBitFirst : Prop :=
  ∀ (w : Bits) (off k : Nat),
    (inRange w off k = true ↔ off + k ≤ w.length) ∧
    (off + k ≤ w.length →
      ∃ v, extract w off k = .ok v ∧ v < 2 ^ k ∧ ∀ j < k, v.testBit (k - 1 - j) = w.getD (off + j) false) ∧
    (w.length < off + k → extract w off k = .error ⟨off, k, w.length⟩)

/-- R103 and R104: on a header, data bytes, a checksum byte and fewer than 8 trailing bits, `validate` compares the sum
modulo 256 with the checksum; a word with no full group is not valid.
(The spec marks this as its own decision D19.) -/
def Obligations.ChecksumComparesTheByteSum : Prop :=
  (∀ (h : Byte) (data : List Byte) (ck : Byte) (trailing : Bits), trailing.length < 8 →
    validate 8 (byteBits h ++ data.flatMap byteBits ++ byteBits ck ++ trailing) =
      decide ((h.toNat + (data.map BitVec.toNat).sum) % 256 = ck.toNat)) ∧
  ∀ w : Bits, w.length < 16 → validate 8 w = false

/-- R169: the zone list of a bitmap, in increasing order, where its bits stand in the word, and when it is ready.
(The spec marks this as its own decision D24.) -/
def Obligations.ZoneListIsTheBitmap : Prop :=
  (∀ (b : Byte) (base z : Nat), z ∈ zonesOf b base ↔ ∃ k < 8, b.getLsbD k = true ∧ z = base + k + 1) ∧
  (∀ (b : Byte) (base : Nat), (zonesOf b base).Pairwise (· < ·)) ∧
  (∀ (w : Bits) (off v k : Nat), extract w off 8 = .ok v → k < 8 →
    (BitVec.ofNat 8 v).getLsbD k = w.getD (off + 7 - k) false) ∧
  (∀ (g : ZoneGroup) (b : Byte), ∃ ready, zoneEvent g b = .zones g b (zonesOf b (zoneBase g)) ready ∧
    (ready = true ↔ b = 0))

/-- R167: the user code by the ranges the rule lists.
(The spec marks this as its own decision D23.) -/
def Obligations.UserCodesAreRemapped : Prop :=
  ∀ (c : Config) (arm : BitVec 2) (u : Nat), u < 64 →
    (arm ≠ c.armStateArmed → u ≤ 33 → remapUser c arm u = u + 1) ∧
    (arm ≠ c.armStateArmed → 34 ≤ u → remapUser c arm u = u + 6) ∧
    (arm = c.armStateArmed → u ≤ 33 + c.armUserOffset → remapUser c arm u = u - (c.armUserOffset : Int) + 1) ∧
    (arm = c.armStateArmed → 34 + c.armUserOffset ≤ u → remapUser c arm u = u - (c.armUserOffset : Int) + 6)

/-- R85: the entries of the button table that the spec fixes, under every configuration. -/
def Obligations.ButtonTableKeepsItsFixedEntries : Prop :=
  ∀ c : Config, buttonTable c 0x82 = some .digit1 ∧ buttonTable c 0xd7 = some .stay ∧
    buttonTable c 0xff = some .echo ∧ buttonTable c 0x01 = none

/-- R37 and R38: the packed views.
(The spec marks this as its own decision D30.) -/
def Obligations.PackedViewsShowTheirRegisters : Prop :=
  ∀ s : State,
    (flagsView s).getLsbD 0 = s.statusLed ∧ (flagsView s).getLsbD 1 = s.statusSeen ∧
    (flagsView s).getLsbD 2 = s.dropP ∧ (flagsView s).getLsbD 3 = s.dropK ∧ (flagsView s).getLsbD 4 = s.tsValid ∧
    (flagsView s).getLsbD 5 = s.tsOk ∧ (flagsView s).getLsbD 6 = s.captureArmed ∧
    resultView s = s.result ∧
    (cmdView s).toNat = s.cmdOutK.toNat * 256 + s.cmdOutP.toNat ∧
    (dstatView s).toNat = s.dstatK.code.toNat * 16 + s.dstatP.code.toNat ∧
    s.dstatK.code.toNat ≤ 7 ∧ s.dstatP.code.toNat ≤ 7

/-- R40: a word port shows the length and the bits of its word, and 0 beyond. That bit `i` of the port is position `i` is
the model's choice (log entry 12). -/
def Obligations.WordPortsShowTheWord : Prop :=
  ∀ w : Bits, w.length ≤ 200 →
    (wordPort w).length.toNat = w.length ∧ ∀ i < 200, (wordPort w).data.getLsbD i = w.getD i false

/-! ## The whole machine -/

/-- R45: every step keeps the invariants. -/
def Obligations.EveryStepKeepsTheInvariants : Prop :=
  ∀ s t : State, s.Inv → step s = .next t → t.Inv

/-- R45 at reset. -/
def Obligations.ResetMeetsTheInvariants : Prop :=
  (∀ c : Config, (State.resetWith c).Inv) ∧ State.reset.Inv

/-- R221: each role's status stays one of its own codes.
(The spec marks this as its own decision D20.) -/
def Obligations.StatusCodesStayWithTheirRole : Prop :=
  ∀ s t : State, s.StatusesLegal → step s = .next t → t.StatusesLegal

/-- R220: no error is fatal. Every instruction, in every state, ends in a next state. -/
def Obligations.EveryInstructionCompletes : Prop :=
  ∀ (i : Instr) (s : State), ∃ t, exec i s = .next t

/-- R41 and R47: no transaction writes a parameter or drives DATA_OUT.
(The spec marks this as its own decision D33.) -/
def Obligations.ParametersAndDataOutNeverChange : Prop :=
  ∀ s t : State, step s = .next t →
    t.cfg = s.cfg ∧ (s.dataOut = .released → t.dataOut = .released)

/-- R42: which transaction writes each register, and how the capture registers are written: EDGE appends to `bld[P]`, and
appends to `bld[K]` or empties it on a promotion into `cmp[K]`, which needs a gap; POLL empties `bld[P]` into `cmp[P]`, on a
guard pass only. -/
def Obligations.RegistersAreWrittenByTheirOwners : Prop :=
  ∀ (i : Instr) (k : Transaction) (s t : State), transactionOf i = some k → exec i s = .next t →
    (t.bldP ≠ s.bldP → k ∈ [Transaction.edge, .poll, .reset]) ∧
    (k = .edge → t.bldP = s.bldP ∨ ∃ d, t.bldP = s.bldP ++ [d]) ∧
    (k = .poll → (PollPasses s → t.bldP = [] ∧ t.cmpP = s.bldP ∧ t.dropP = false) ∧
      (¬ PollPasses s → t.bldP = s.bldP ∧ t.cmpP = s.cmpP ∧ t.dropP = s.dropP)) ∧
    (t.bldK ≠ s.bldK → k ∈ [Transaction.edge, .reset]) ∧
    (k = .edge →
      (t.cmpK = s.cmpK ∧ (t.bldK = s.bldK ∨ ∃ d, t.bldK = s.bldK ++ [d])) ∨
      (s.cfg.tBoundary - s.cfg.mCapture < t.edgeInterval.toNat ∧ t.cmpK = s.bldK ∧ t.dropK = false ∧
        (t.bldK = [] ∨ ∃ d, t.bldK = [d]))) ∧
    (t.cmpP ≠ s.cmpP → k ∈ [Transaction.poll, .reset]) ∧
    (t.cmpK ≠ s.cmpK → k ∈ [Transaction.edge, .reset]) ∧
    (t.prvP ≠ s.prvP ∨ t.prvK ≠ s.prvK → k ∈ [Transaction.poll, .reset]) ∧
    (t.dropP ≠ s.dropP → k ∈ [Transaction.edge, .poll, .reset]) ∧
    (k = .edge → s.dropP = true → t.dropP = true) ∧
    (k = .poll → s.dropP = false → t.dropP = false) ∧
    (t.dropK ≠ s.dropK → k ∈ [Transaction.edge, .reset]) ∧
    (t.lastEdgeTs ≠ s.lastEdgeTs ∨ t.edgeInterval ≠ s.edgeInterval → k ∈ [Transaction.edge, .reset]) ∧
    (t.lastStatusTs ≠ s.lastStatusTs ∨ t.statusSeen ≠ s.statusSeen ∨ t.lastDataTs ≠ s.lastDataTs →
      k ∈ [Transaction.poll, .reset]) ∧
    (t.captureArmed ≠ s.captureArmed → k ∈ [Transaction.arm, .reset]) ∧
    (t.result ≠ s.result ∨ t.cmdOutP ≠ s.cmdOutP ∨ t.cmdOutK ≠ s.cmdOutK ∨ t.dstatP ≠ s.dstatP ∨
      t.dstatK ≠ s.dstatK ∨ t.evP ≠ s.evP ∨ t.evK ≠ s.evK ∨ t.statusLed ≠ s.statusLed ∨ t.tsValid ≠ s.tsValid ∨
      t.tsYear ≠ s.tsYear ∨ t.tsMonth ≠ s.tsMonth ∨ t.tsDay ≠ s.tsDay ∨ t.tsHour ≠ s.tsHour ∨
      t.tsMinute ≠ s.tsMinute ∨ t.tsOk ≠ s.tsOk → k ∈ [Transaction.poll, .reset])

/-- R29: only RESET clears `statusSeen`, and only a committed status command sets it.
(The spec marks this as its own decision D12.) -/
def Obligations.StatusSeenIsClearedByResetOnly : Prop :=
  ∀ (i : Instr) (s t : State), exec i s = .next t →
    (s.statusSeen = true → t.statusSeen = false → i = .reset) ∧
    (s.statusSeen = false → t.statusSeen = true → t.cmdOutP = 0x05 ∧ t.dstatP = .ok)

/-- R25, R30 and R211: the drop flags, `prv[K]` and `lastDataTs` influence nothing but themselves: two states that differ
in these alone step alike. -/
def Obligations.DiagnosticsInfluenceNothing : Prop :=
  ∀ (s : State) (dP dK : Bool) (pK : Bits) (ts : Word),
    (∀ t, step s = .next t →
      ∃ dP' dK' pK' ts', step (s.withDiagnostics dP dK pK ts) = .next (t.withDiagnostics dP' dK' pK' ts')) ∧
    (∀ r, step s = .refused r → step (s.withDiagnostics dP dK pK ts) = .refused r)

/-- R72: a run through the events of `BITS` whose spacing is below the capture threshold frames nothing after its first
FALL: it appends its panel bits and its keypad bits, dropping those beyond the capacity, and promotes at its first FALL at
most. The premises on the lengths hold in every state that meets the invariants (R45).
(The events are pending ones, log entry 1; times of 2^32 or more are taken modulo 2^32, log entry 17. Both are the model's
choice.) -/
def Obligations.BitsFrameNothingInside : Prop :=
  ∀ (s : State) (p k : Bits) (t0 h : Nat) (rest : List EventWord),
    s.cfg.wf = true → s.captureArmed = true → s.bldP.length ≤ 200 → s.bldK.length ≤ 200 →
    p.length = k.length → 0 < p.length → h < s.cfg.tBoundary - s.cfg.mCapture →
    s.pending = bitsEvents h t0 (p.zip k) ++ rest →
    let first := BitVec.ofNat 32 t0
    let bldK0 := if GapAt first s then [] else s.bldK
    Host.Core.run core (2 * p.length) s = .next { s with
      pending := rest
      bldP := (s.bldP ++ p).take 200
      bldK := (bldK0 ++ k).take 200
      cmpK := if GapAt first s then s.bldK else s.cmpK
      dropP := s.dropP || decide (200 < s.bldP.length + p.length)
      dropK := (!decide (GapAt first s) && s.dropK) || decide (200 < bldK0.length + k.length)
      lastEdgeTs := BitVec.ofNat 32 (t0 + (2 * p.length - 1) * h)
      edgeInterval := BitVec.ofNat 32 h }

/-- R143, R121 and R148 together: panel bits sent by `BITS`, then the FALL that ends the gap, then a POLL: the completed
panel word is the bits that were waiting (R255) followed by the bits sent, up to the capacity, and the completed keypad word
the keypad bits since the last promotion, up to the capacity. From an empty panel sequence the word is exactly the bits sent.
(The events are pending ones, log entry 1; times of 2^32 or more are taken modulo 2^32, log entry 17. Both are the model's
choice.) -/
def Obligations.WordsAreFramedExactly : Prop :=
  ∀ (s : State) (p k : Bits) (t0 h : Nat) (d a : Bool) (t1 t2 : Word) (rest : List EventWord),
    s.cfg.wf = true → s.captureArmed = true → s.bldP.length ≤ 200 → s.bldK.length ≤ 200 →
    p.length = k.length → 0 < p.length → 8 ≤ s.bldP.length + p.length → h < s.cfg.tBoundary - s.cfg.mCapture →
    s.cfg.tBoundary + s.cfg.mFramer < (t1 - BitVec.ofNat 32 (t0 + (2 * p.length - 1) * h)).toNat →
    s.pending = bitsEvents h t0 (p.zip k) ++ [eventWord 0b00 false d t1, pollWord a t2] ++ rest →
    let bldK0 := if GapAt (BitVec.ofNat 32 t0) s then [] else s.bldK
    ∃ t, Host.Core.run core (2 * p.length + 2) s = .next t ∧
      t.cmpP = (s.bldP ++ p).take 200 ∧ (s.bldP = [] → p.length ≤ 200 → t.cmpP = p) ∧ t.bldP = [] ∧
      t.cmpK = (bldK0 ++ k).take 200 ∧ t.bldK = [d] ∧ t.pending = rest ∧ t.dstatP ≠ .none ∧ t.dstatK ≠ .none
end

