-- ==== Sys2Proof/Laws/BitField.lean ====
section
/-! SUPPORT. The laws of BitField (spec/40_bitfield_checksum.md R100 to R102): the value of a bit string, the bytes, and when extract answers. -/
namespace Sys2Proof.Machine

@[simp] theorem fieldValue_nil : fieldValue [] = 0 := rfl

theorem fieldValue_snoc (bs : Bits) (b : Bool) : fieldValue (bs ++ [b]) = 2 * fieldValue bs + b.toNat := by
  simp [fieldValue, List.foldl_append]

theorem fieldValue_append (xs ys : Bits) : fieldValue (xs ++ ys) = fieldValue xs * 2 ^ ys.length + fieldValue ys := by
  induction ys using List.reverseRecOn with
  | nil => simp
  | append_singleton ys b ih =>
    rw [← List.append_assoc, fieldValue_snoc, fieldValue_snoc, ih]
    simp [pow_succ]
    ring

theorem fieldValue_lt (bs : Bits) : fieldValue bs < 2 ^ bs.length := by
  induction bs using List.reverseRecOn with
  | nil => simp
  | append_singleton bs b ih =>
    rw [fieldValue_snoc, List.length_append, List.length_singleton, pow_succ]
    have := b.toNat_le
    omega

/-- The digit of weight `2^j` is the `j`-th bit from the end. -/
theorem fieldValue_testBit (bs : Bits) (j : Nat) : (fieldValue bs).testBit j = bs.reverse.getD j false := by
  induction bs using List.reverseRecOn generalizing j with
  | nil => simp
  | append_singleton bs b ih =>
    rw [fieldValue_snoc, List.reverse_append, List.reverse_singleton, List.singleton_append]
    cases j with
    | zero => cases b <;> simp [Nat.testBit_zero, Nat.add_mod]
    | succ j =>
      have h : (2 * fieldValue bs + b.toNat) / 2 = fieldValue bs := by have := b.toNat_le; omega
      rw [Nat.testBit_succ, h, ih]
      simp

@[simp] theorem byteBits_length (b : Byte) : (byteBits b).length = 8 := rfl

@[simp] theorem fieldValue_byteBits (b : Byte) : fieldValue (byteBits b) = b.toNat := by
  revert b
  decide +kernel

/-- Eight bits are the bits of their value. -/
theorem byteBits_of_fieldValue {bs : Bits} (h : bs.length = 8) : byteBits (BitVec.ofNat 8 (fieldValue bs)) = bs := by
  match bs, h with
  | [b7, b6, b5, b4, b3, b2, b1, b0], _ =>
    revert b7 b6 b5 b4 b3 b2 b1 b0
    decide +kernel

theorem byteBits_injective {a b : Byte} (h : byteBits a = byteBits b) : a = b := by
  have := congrArg fieldValue h
  simpa using BitVec.eq_of_toNat_eq (by simpa using this)

theorem byteBits_append_inj {a b : Byte} {x y : Bits} (h : byteBits a ++ x = byteBits b ++ y) : a = b ∧ x = y := by
  have := List.append_inj h rfl
  exact ⟨byteBits_injective this.1, this.2⟩

@[simp] theorem inRange_eq_true {w : Bits} {off k : Nat} : inRange w off k = true ↔ off + k ≤ w.length := by
  simp [inRange]

theorem extract_of_inRange {w : Bits} {off k : Nat} (h : off + k ≤ w.length) : extract w off k = .ok (fieldAt w off k) := by
  simp [extract, h]

theorem extract_of_short {w : Bits} {off k : Nat} (h : w.length < off + k) :
    extract w off k = .error ⟨off, k, w.length⟩ := by
  simp [extract, show ¬ off + k ≤ w.length by omega]

/-- What `extract` answers tells that the field is in range, and its value. -/
theorem extract_eq_ok {w : Bits} {off k v : Nat} (h : extract w off k = .ok v) :
    off + k ≤ w.length ∧ v = fieldAt w off k := by
  by_cases hr : off + k ≤ w.length
  · rw [extract_of_inRange hr] at h
    exact ⟨hr, by injection h with h; exact h.symm⟩
  · rw [extract_of_short (by omega)] at h
    cases h

theorem fieldAt_lt {w : Bits} {off k : Nat} (h : off + k ≤ w.length) : fieldAt w off k < 2 ^ k := by
  have := fieldValue_lt ((w.drop off).take k)
  rwa [List.length_take, List.length_drop, Nat.min_eq_left (by omega)] at this

/-- The command byte of a word built from a byte and a tail. -/
@[simp] theorem extract_command (code : Byte) (tail : Bits) : extract (byteBits code ++ tail) 0 8 = .ok code.toNat := by
  have h : ((byteBits code ++ tail).drop 0).take 8 = byteBits code := by
    rw [List.drop_zero, List.take_left' (byteBits_length code)]
  rw [extract_of_inRange (by simp), fieldAt, h, fieldValue_byteBits]

@[simp] theorem drop_command (code : Byte) (tail : Bits) : (byteBits code ++ tail).drop 8 = tail :=
  List.drop_left' (byteBits_length code)

@[simp] theorem take_command (code : Byte) (tail : Bits) : (byteBits code ++ tail).take 8 = byteBits code :=
  List.take_left' (byteBits_length code)

/-- A word with at least eight bits is a command byte and a tail. -/
theorem word_split {w : Bits} (h : 8 ≤ w.length) :
    w = byteBits (BitVec.ofNat 8 (fieldAt w 0 8)) ++ w.drop 8 := by
  have hl : (w.take 8).length = 8 := by simp [h]
  rw [fieldAt, List.drop_zero, byteBits_of_fieldValue hl, List.take_append_drop]

/-- A 1-bit field in range is the bit at its offset. -/
theorem fieldAt_one {w : Bits} {off : Nat} (h : off + 1 ≤ w.length) : fieldAt w off 1 = (w.getD off false).toNat := by
  have h' : off < w.length := by omega
  have e : (w.drop off).take 1 = [w[off]] := by
    rw [List.drop_eq_getElem_cons h']
    rfl
  rw [fieldAt, e, List.getD_eq_getElem (hn := h')]
  cases w[off] <;> rfl

@[simp] theorem hasZero_eq_true {w : Bits} : hasZero w = true ↔ false ∈ w := by
  simp [hasZero]

@[simp] theorem fieldsInRange_eq_true {w : Bits} {fs : List FieldSpec} :
    fieldsInRange w fs = true ↔ ∀ f ∈ fs, f.1 + f.2 ≤ w.length := by
  simp [fieldsInRange, List.all_eq_true]

end Sys2Proof.Machine
end

