-- ==== Sys2Proof/Laws/State.lean ====
section
/-! SUPPORT. What each named update of the state writes and leaves: one lemma for each field of each update, so that no later proof unfolds a record update. -/
namespace Sys2Proof.Machine

/-! `appendBit` (R124) -/

@[simp] theorem appendBit_cfg (r : Role) (d : Bool) (s : State) : (appendBit r d s).cfg = s.cfg := by
  cases r <;> simp only [appendBit] <;> split <;> rfl
@[simp] theorem appendBit_pending (r : Role) (d : Bool) (s : State) : (appendBit r d s).pending = s.pending := by
  cases r <;> simp only [appendBit] <;> split <;> rfl
@[simp] theorem appendBit_cmpP (r : Role) (d : Bool) (s : State) : (appendBit r d s).cmpP = s.cmpP := by
  cases r <;> simp only [appendBit] <;> split <;> rfl
@[simp] theorem appendBit_cmpK (r : Role) (d : Bool) (s : State) : (appendBit r d s).cmpK = s.cmpK := by
  cases r <;> simp only [appendBit] <;> split <;> rfl
@[simp] theorem appendBit_prvP (r : Role) (d : Bool) (s : State) : (appendBit r d s).prvP = s.prvP := by
  cases r <;> simp only [appendBit] <;> split <;> rfl
@[simp] theorem appendBit_prvK (r : Role) (d : Bool) (s : State) : (appendBit r d s).prvK = s.prvK := by
  cases r <;> simp only [appendBit] <;> split <;> rfl
@[simp] theorem appendBit_lastEdgeTs (r : Role) (d : Bool) (s : State) : (appendBit r d s).lastEdgeTs = s.lastEdgeTs := by
  cases r <;> simp only [appendBit] <;> split <;> rfl
@[simp] theorem appendBit_edgeInterval (r : Role) (d : Bool) (s : State) : (appendBit r d s).edgeInterval = s.edgeInterval := by
  cases r <;> simp only [appendBit] <;> split <;> rfl
@[simp] theorem appendBit_lastStatusTs (r : Role) (d : Bool) (s : State) : (appendBit r d s).lastStatusTs = s.lastStatusTs := by
  cases r <;> simp only [appendBit] <;> split <;> rfl
@[simp] theorem appendBit_statusSeen (r : Role) (d : Bool) (s : State) : (appendBit r d s).statusSeen = s.statusSeen := by
  cases r <;> simp only [appendBit] <;> split <;> rfl
@[simp] theorem appendBit_lastDataTs (r : Role) (d : Bool) (s : State) : (appendBit r d s).lastDataTs = s.lastDataTs := by
  cases r <;> simp only [appendBit] <;> split <;> rfl
@[simp] theorem appendBit_captureArmed (r : Role) (d : Bool) (s : State) : (appendBit r d s).captureArmed = s.captureArmed := by
  cases r <;> simp only [appendBit] <;> split <;> rfl
@[simp] theorem appendBit_result (r : Role) (d : Bool) (s : State) : (appendBit r d s).result = s.result := by
  cases r <;> simp only [appendBit] <;> split <;> rfl
@[simp] theorem appendBit_cmdOutP (r : Role) (d : Bool) (s : State) : (appendBit r d s).cmdOutP = s.cmdOutP := by
  cases r <;> simp only [appendBit] <;> split <;> rfl
@[simp] theorem appendBit_cmdOutK (r : Role) (d : Bool) (s : State) : (appendBit r d s).cmdOutK = s.cmdOutK := by
  cases r <;> simp only [appendBit] <;> split <;> rfl
@[simp] theorem appendBit_dstatP (r : Role) (d : Bool) (s : State) : (appendBit r d s).dstatP = s.dstatP := by
  cases r <;> simp only [appendBit] <;> split <;> rfl
@[simp] theorem appendBit_dstatK (r : Role) (d : Bool) (s : State) : (appendBit r d s).dstatK = s.dstatK := by
  cases r <;> simp only [appendBit] <;> split <;> rfl
@[simp] theorem appendBit_evP (r : Role) (d : Bool) (s : State) : (appendBit r d s).evP = s.evP := by
  cases r <;> simp only [appendBit] <;> split <;> rfl
@[simp] theorem appendBit_evK (r : Role) (d : Bool) (s : State) : (appendBit r d s).evK = s.evK := by
  cases r <;> simp only [appendBit] <;> split <;> rfl
@[simp] theorem appendBit_statusLed (r : Role) (d : Bool) (s : State) : (appendBit r d s).statusLed = s.statusLed := by
  cases r <;> simp only [appendBit] <;> split <;> rfl
@[simp] theorem appendBit_tsValid (r : Role) (d : Bool) (s : State) : (appendBit r d s).tsValid = s.tsValid := by
  cases r <;> simp only [appendBit] <;> split <;> rfl
@[simp] theorem appendBit_tsYear (r : Role) (d : Bool) (s : State) : (appendBit r d s).tsYear = s.tsYear := by
  cases r <;> simp only [appendBit] <;> split <;> rfl
@[simp] theorem appendBit_tsMonth (r : Role) (d : Bool) (s : State) : (appendBit r d s).tsMonth = s.tsMonth := by
  cases r <;> simp only [appendBit] <;> split <;> rfl
@[simp] theorem appendBit_tsDay (r : Role) (d : Bool) (s : State) : (appendBit r d s).tsDay = s.tsDay := by
  cases r <;> simp only [appendBit] <;> split <;> rfl
@[simp] theorem appendBit_tsHour (r : Role) (d : Bool) (s : State) : (appendBit r d s).tsHour = s.tsHour := by
  cases r <;> simp only [appendBit] <;> split <;> rfl
@[simp] theorem appendBit_tsMinute (r : Role) (d : Bool) (s : State) : (appendBit r d s).tsMinute = s.tsMinute := by
  cases r <;> simp only [appendBit] <;> split <;> rfl
@[simp] theorem appendBit_tsOk (r : Role) (d : Bool) (s : State) : (appendBit r d s).tsOk = s.tsOk := by
  cases r <;> simp only [appendBit] <;> split <;> rfl
@[simp] theorem appendBit_dataOut (r : Role) (d : Bool) (s : State) : (appendBit r d s).dataOut = s.dataOut := by
  cases r <;> simp only [appendBit] <;> split <;> rfl

@[simp] theorem appendBit_panel_bldK (d : Bool) (s : State) : (appendBit .panel d s).bldK = s.bldK := by
  simp only [appendBit]; split <;> rfl
@[simp] theorem appendBit_panel_dropK (d : Bool) (s : State) : (appendBit .panel d s).dropK = s.dropK := by
  simp only [appendBit]; split <;> rfl
@[simp] theorem appendBit_keypad_bldP (d : Bool) (s : State) : (appendBit .keypad d s).bldP = s.bldP := by
  simp only [appendBit]; split <;> rfl
@[simp] theorem appendBit_keypad_dropP (d : Bool) (s : State) : (appendBit .keypad d s).dropP = s.dropP := by
  simp only [appendBit]; split <;> rfl
theorem appendBit_panel_bldP (d : Bool) (s : State) :
    (appendBit .panel d s).bldP = if s.bldP.length < maxBits then s.bldP ++ [d] else s.bldP := by
  simp only [appendBit]; split <;> rfl
theorem appendBit_panel_dropP (d : Bool) (s : State) :
    (appendBit .panel d s).dropP = if s.bldP.length < maxBits then s.dropP else true := by
  simp only [appendBit]; split <;> rfl
theorem appendBit_keypad_bldK (d : Bool) (s : State) :
    (appendBit .keypad d s).bldK = if s.bldK.length < maxBits then s.bldK ++ [d] else s.bldK := by
  simp only [appendBit]; split <;> rfl
theorem appendBit_keypad_dropK (d : Bool) (s : State) :
    (appendBit .keypad d s).dropK = if s.bldK.length < maxBits then s.dropK else true := by
  simp only [appendBit]; split <;> rfl

/-! `promote` (R121, R143) -/

@[simp] theorem promote_cfg (r : Role) (s : State) : (promote r s).cfg = s.cfg := by cases r <;> rfl
@[simp] theorem promote_pending (r : Role) (s : State) : (promote r s).pending = s.pending := by cases r <;> rfl
@[simp] theorem promote_prvP (r : Role) (s : State) : (promote r s).prvP = s.prvP := by cases r <;> rfl
@[simp] theorem promote_prvK (r : Role) (s : State) : (promote r s).prvK = s.prvK := by cases r <;> rfl
@[simp] theorem promote_lastEdgeTs (r : Role) (s : State) : (promote r s).lastEdgeTs = s.lastEdgeTs := by cases r <;> rfl
@[simp] theorem promote_edgeInterval (r : Role) (s : State) : (promote r s).edgeInterval = s.edgeInterval := by cases r <;> rfl
@[simp] theorem promote_lastStatusTs (r : Role) (s : State) : (promote r s).lastStatusTs = s.lastStatusTs := by cases r <;> rfl
@[simp] theorem promote_statusSeen (r : Role) (s : State) : (promote r s).statusSeen = s.statusSeen := by cases r <;> rfl
@[simp] theorem promote_lastDataTs (r : Role) (s : State) : (promote r s).lastDataTs = s.lastDataTs := by cases r <;> rfl
@[simp] theorem promote_captureArmed (r : Role) (s : State) : (promote r s).captureArmed = s.captureArmed := by cases r <;> rfl
@[simp] theorem promote_result (r : Role) (s : State) : (promote r s).result = s.result := by cases r <;> rfl
@[simp] theorem promote_cmdOutP (r : Role) (s : State) : (promote r s).cmdOutP = s.cmdOutP := by cases r <;> rfl
@[simp] theorem promote_cmdOutK (r : Role) (s : State) : (promote r s).cmdOutK = s.cmdOutK := by cases r <;> rfl
@[simp] theorem promote_dstatP (r : Role) (s : State) : (promote r s).dstatP = s.dstatP := by cases r <;> rfl
@[simp] theorem promote_dstatK (r : Role) (s : State) : (promote r s).dstatK = s.dstatK := by cases r <;> rfl
@[simp] theorem promote_evP (r : Role) (s : State) : (promote r s).evP = s.evP := by cases r <;> rfl
@[simp] theorem promote_evK (r : Role) (s : State) : (promote r s).evK = s.evK := by cases r <;> rfl
@[simp] theorem promote_statusLed (r : Role) (s : State) : (promote r s).statusLed = s.statusLed := by cases r <;> rfl
@[simp] theorem promote_tsValid (r : Role) (s : State) : (promote r s).tsValid = s.tsValid := by cases r <;> rfl
@[simp] theorem promote_tsYear (r : Role) (s : State) : (promote r s).tsYear = s.tsYear := by cases r <;> rfl
@[simp] theorem promote_tsMonth (r : Role) (s : State) : (promote r s).tsMonth = s.tsMonth := by cases r <;> rfl
@[simp] theorem promote_tsDay (r : Role) (s : State) : (promote r s).tsDay = s.tsDay := by cases r <;> rfl
@[simp] theorem promote_tsHour (r : Role) (s : State) : (promote r s).tsHour = s.tsHour := by cases r <;> rfl
@[simp] theorem promote_tsMinute (r : Role) (s : State) : (promote r s).tsMinute = s.tsMinute := by cases r <;> rfl
@[simp] theorem promote_tsOk (r : Role) (s : State) : (promote r s).tsOk = s.tsOk := by cases r <;> rfl
@[simp] theorem promote_dataOut (r : Role) (s : State) : (promote r s).dataOut = s.dataOut := by cases r <;> rfl

@[simp] theorem promote_panel_bldP (s : State) : (promote .panel s).bldP = [] := rfl
@[simp] theorem promote_panel_cmpP (s : State) : (promote .panel s).cmpP = s.bldP := rfl
@[simp] theorem promote_panel_dropP (s : State) : (promote .panel s).dropP = false := rfl
@[simp] theorem promote_panel_bldK (s : State) : (promote .panel s).bldK = s.bldK := rfl
@[simp] theorem promote_panel_cmpK (s : State) : (promote .panel s).cmpK = s.cmpK := rfl
@[simp] theorem promote_panel_dropK (s : State) : (promote .panel s).dropK = s.dropK := rfl
@[simp] theorem promote_keypad_bldK (s : State) : (promote .keypad s).bldK = [] := rfl
@[simp] theorem promote_keypad_cmpK (s : State) : (promote .keypad s).cmpK = s.bldK := rfl
@[simp] theorem promote_keypad_dropK (s : State) : (promote .keypad s).dropK = false := rfl
@[simp] theorem promote_keypad_bldP (s : State) : (promote .keypad s).bldP = s.bldP := rfl
@[simp] theorem promote_keypad_cmpP (s : State) : (promote .keypad s).cmpP = s.cmpP := rfl
@[simp] theorem promote_keypad_dropP (s : State) : (promote .keypad s).dropP = s.dropP := rfl

/-! `reject` (R160, R200) -/

@[simp] theorem reject_cfg (r : Role) (st : DStat) (s : State) : (reject r st s).cfg = s.cfg := by cases r <;> rfl
@[simp] theorem reject_pending (r : Role) (st : DStat) (s : State) : (reject r st s).pending = s.pending := by cases r <;> rfl
@[simp] theorem reject_bldP (r : Role) (st : DStat) (s : State) : (reject r st s).bldP = s.bldP := by cases r <;> rfl
@[simp] theorem reject_bldK (r : Role) (st : DStat) (s : State) : (reject r st s).bldK = s.bldK := by cases r <;> rfl
@[simp] theorem reject_cmpP (r : Role) (st : DStat) (s : State) : (reject r st s).cmpP = s.cmpP := by cases r <;> rfl
@[simp] theorem reject_cmpK (r : Role) (st : DStat) (s : State) : (reject r st s).cmpK = s.cmpK := by cases r <;> rfl
@[simp] theorem reject_prvP (r : Role) (st : DStat) (s : State) : (reject r st s).prvP = s.prvP := by cases r <;> rfl
@[simp] theorem reject_prvK (r : Role) (st : DStat) (s : State) : (reject r st s).prvK = s.prvK := by cases r <;> rfl
@[simp] theorem reject_dropP (r : Role) (st : DStat) (s : State) : (reject r st s).dropP = s.dropP := by cases r <;> rfl
@[simp] theorem reject_dropK (r : Role) (st : DStat) (s : State) : (reject r st s).dropK = s.dropK := by cases r <;> rfl
@[simp] theorem reject_lastEdgeTs (r : Role) (st : DStat) (s : State) : (reject r st s).lastEdgeTs = s.lastEdgeTs := by cases r <;> rfl
@[simp] theorem reject_edgeInterval (r : Role) (st : DStat) (s : State) : (reject r st s).edgeInterval = s.edgeInterval := by cases r <;> rfl
@[simp] theorem reject_lastStatusTs (r : Role) (st : DStat) (s : State) : (reject r st s).lastStatusTs = s.lastStatusTs := by cases r <;> rfl
@[simp] theorem reject_statusSeen (r : Role) (st : DStat) (s : State) : (reject r st s).statusSeen = s.statusSeen := by cases r <;> rfl
@[simp] theorem reject_lastDataTs (r : Role) (st : DStat) (s : State) : (reject r st s).lastDataTs = s.lastDataTs := by cases r <;> rfl
@[simp] theorem reject_captureArmed (r : Role) (st : DStat) (s : State) : (reject r st s).captureArmed = s.captureArmed := by cases r <;> rfl
@[simp] theorem reject_result (r : Role) (st : DStat) (s : State) : (reject r st s).result = s.result := by cases r <;> rfl
@[simp] theorem reject_evP (r : Role) (st : DStat) (s : State) : (reject r st s).evP = s.evP := by cases r <;> rfl
@[simp] theorem reject_evK (r : Role) (st : DStat) (s : State) : (reject r st s).evK = s.evK := by cases r <;> rfl
@[simp] theorem reject_statusLed (r : Role) (st : DStat) (s : State) : (reject r st s).statusLed = s.statusLed := by cases r <;> rfl
@[simp] theorem reject_tsValid (r : Role) (st : DStat) (s : State) : (reject r st s).tsValid = s.tsValid := by cases r <;> rfl
@[simp] theorem reject_tsYear (r : Role) (st : DStat) (s : State) : (reject r st s).tsYear = s.tsYear := by cases r <;> rfl
@[simp] theorem reject_tsMonth (r : Role) (st : DStat) (s : State) : (reject r st s).tsMonth = s.tsMonth := by cases r <;> rfl
@[simp] theorem reject_tsDay (r : Role) (st : DStat) (s : State) : (reject r st s).tsDay = s.tsDay := by cases r <;> rfl
@[simp] theorem reject_tsHour (r : Role) (st : DStat) (s : State) : (reject r st s).tsHour = s.tsHour := by cases r <;> rfl
@[simp] theorem reject_tsMinute (r : Role) (st : DStat) (s : State) : (reject r st s).tsMinute = s.tsMinute := by cases r <;> rfl
@[simp] theorem reject_tsOk (r : Role) (st : DStat) (s : State) : (reject r st s).tsOk = s.tsOk := by cases r <;> rfl
@[simp] theorem reject_dataOut (r : Role) (st : DStat) (s : State) : (reject r st s).dataOut = s.dataOut := by cases r <;> rfl

@[simp] theorem reject_panel_cmdOutP (st : DStat) (s : State) : (reject .panel st s).cmdOutP = 0 := rfl
@[simp] theorem reject_panel_dstatP (st : DStat) (s : State) : (reject .panel st s).dstatP = st := rfl
@[simp] theorem reject_panel_cmdOutK (st : DStat) (s : State) : (reject .panel st s).cmdOutK = s.cmdOutK := rfl
@[simp] theorem reject_panel_dstatK (st : DStat) (s : State) : (reject .panel st s).dstatK = s.dstatK := rfl
@[simp] theorem reject_keypad_cmdOutK (st : DStat) (s : State) : (reject .keypad st s).cmdOutK = 0 := rfl
@[simp] theorem reject_keypad_dstatK (st : DStat) (s : State) : (reject .keypad st s).dstatK = st := rfl
@[simp] theorem reject_keypad_cmdOutP (st : DStat) (s : State) : (reject .keypad st s).cmdOutP = s.cmdOutP := rfl
@[simp] theorem reject_keypad_dstatP (st : DStat) (s : State) : (reject .keypad st s).dstatP = s.dstatP := rfl

/-! `commit` (R165, R202) -/

@[simp] theorem commit_cfg (r : Role) (w : Bits) (now : Word) (s : State) : (commit r w now s).cfg = s.cfg := by cases r <;> rfl
@[simp] theorem commit_pending (r : Role) (w : Bits) (now : Word) (s : State) : (commit r w now s).pending = s.pending := by cases r <;> rfl
@[simp] theorem commit_bldP (r : Role) (w : Bits) (now : Word) (s : State) : (commit r w now s).bldP = s.bldP := by cases r <;> rfl
@[simp] theorem commit_bldK (r : Role) (w : Bits) (now : Word) (s : State) : (commit r w now s).bldK = s.bldK := by cases r <;> rfl
@[simp] theorem commit_cmpP (r : Role) (w : Bits) (now : Word) (s : State) : (commit r w now s).cmpP = s.cmpP := by cases r <;> rfl
@[simp] theorem commit_cmpK (r : Role) (w : Bits) (now : Word) (s : State) : (commit r w now s).cmpK = s.cmpK := by cases r <;> rfl
@[simp] theorem commit_dropP (r : Role) (w : Bits) (now : Word) (s : State) : (commit r w now s).dropP = s.dropP := by cases r <;> rfl
@[simp] theorem commit_dropK (r : Role) (w : Bits) (now : Word) (s : State) : (commit r w now s).dropK = s.dropK := by cases r <;> rfl
@[simp] theorem commit_lastEdgeTs (r : Role) (w : Bits) (now : Word) (s : State) : (commit r w now s).lastEdgeTs = s.lastEdgeTs := by cases r <;> rfl
@[simp] theorem commit_edgeInterval (r : Role) (w : Bits) (now : Word) (s : State) : (commit r w now s).edgeInterval = s.edgeInterval := by cases r <;> rfl
@[simp] theorem commit_lastStatusTs (r : Role) (w : Bits) (now : Word) (s : State) : (commit r w now s).lastStatusTs = s.lastStatusTs := by cases r <;> rfl
@[simp] theorem commit_statusSeen (r : Role) (w : Bits) (now : Word) (s : State) : (commit r w now s).statusSeen = s.statusSeen := by cases r <;> rfl
@[simp] theorem commit_captureArmed (r : Role) (w : Bits) (now : Word) (s : State) : (commit r w now s).captureArmed = s.captureArmed := by cases r <;> rfl
@[simp] theorem commit_result (r : Role) (w : Bits) (now : Word) (s : State) : (commit r w now s).result = s.result := by cases r <;> rfl
@[simp] theorem commit_cmdOutP (r : Role) (w : Bits) (now : Word) (s : State) : (commit r w now s).cmdOutP = s.cmdOutP := by cases r <;> rfl
@[simp] theorem commit_cmdOutK (r : Role) (w : Bits) (now : Word) (s : State) : (commit r w now s).cmdOutK = s.cmdOutK := by cases r <;> rfl
@[simp] theorem commit_dstatP (r : Role) (w : Bits) (now : Word) (s : State) : (commit r w now s).dstatP = s.dstatP := by cases r <;> rfl
@[simp] theorem commit_dstatK (r : Role) (w : Bits) (now : Word) (s : State) : (commit r w now s).dstatK = s.dstatK := by cases r <;> rfl
@[simp] theorem commit_evP (r : Role) (w : Bits) (now : Word) (s : State) : (commit r w now s).evP = s.evP := by cases r <;> rfl
@[simp] theorem commit_evK (r : Role) (w : Bits) (now : Word) (s : State) : (commit r w now s).evK = s.evK := by cases r <;> rfl
@[simp] theorem commit_statusLed (r : Role) (w : Bits) (now : Word) (s : State) : (commit r w now s).statusLed = s.statusLed := by cases r <;> rfl
@[simp] theorem commit_tsValid (r : Role) (w : Bits) (now : Word) (s : State) : (commit r w now s).tsValid = s.tsValid := by cases r <;> rfl
@[simp] theorem commit_tsYear (r : Role) (w : Bits) (now : Word) (s : State) : (commit r w now s).tsYear = s.tsYear := by cases r <;> rfl
@[simp] theorem commit_tsMonth (r : Role) (w : Bits) (now : Word) (s : State) : (commit r w now s).tsMonth = s.tsMonth := by cases r <;> rfl
@[simp] theorem commit_tsDay (r : Role) (w : Bits) (now : Word) (s : State) : (commit r w now s).tsDay = s.tsDay := by cases r <;> rfl
@[simp] theorem commit_tsHour (r : Role) (w : Bits) (now : Word) (s : State) : (commit r w now s).tsHour = s.tsHour := by cases r <;> rfl
@[simp] theorem commit_tsMinute (r : Role) (w : Bits) (now : Word) (s : State) : (commit r w now s).tsMinute = s.tsMinute := by cases r <;> rfl
@[simp] theorem commit_tsOk (r : Role) (w : Bits) (now : Word) (s : State) : (commit r w now s).tsOk = s.tsOk := by cases r <;> rfl
@[simp] theorem commit_dataOut (r : Role) (w : Bits) (now : Word) (s : State) : (commit r w now s).dataOut = s.dataOut := by cases r <;> rfl

@[simp] theorem commit_lastDataTs (r : Role) (w : Bits) (now : Word) (s : State) :
    (commit r w now s).lastDataTs = now := by cases r <;> rfl
@[simp] theorem commit_panel_prvP (w : Bits) (now : Word) (s : State) : (commit .panel w now s).prvP = w := rfl
@[simp] theorem commit_panel_prvK (w : Bits) (now : Word) (s : State) : (commit .panel w now s).prvK = s.prvK := rfl
@[simp] theorem commit_keypad_prvK (w : Bits) (now : Word) (s : State) : (commit .keypad w now s).prvK = w := rfl
@[simp] theorem commit_keypad_prvP (w : Bits) (now : Word) (s : State) : (commit .keypad w now s).prvP = s.prvP := rfl

/-! `clearEvents` (R144) -/

@[simp] theorem clearEvents_cfg (s : State) : (clearEvents s).cfg = s.cfg := rfl
@[simp] theorem clearEvents_pending (s : State) : (clearEvents s).pending = s.pending := rfl
@[simp] theorem clearEvents_bldP (s : State) : (clearEvents s).bldP = s.bldP := rfl
@[simp] theorem clearEvents_bldK (s : State) : (clearEvents s).bldK = s.bldK := rfl
@[simp] theorem clearEvents_cmpP (s : State) : (clearEvents s).cmpP = s.cmpP := rfl
@[simp] theorem clearEvents_cmpK (s : State) : (clearEvents s).cmpK = s.cmpK := rfl
@[simp] theorem clearEvents_prvP (s : State) : (clearEvents s).prvP = s.prvP := rfl
@[simp] theorem clearEvents_prvK (s : State) : (clearEvents s).prvK = s.prvK := rfl
@[simp] theorem clearEvents_dropP (s : State) : (clearEvents s).dropP = s.dropP := rfl
@[simp] theorem clearEvents_dropK (s : State) : (clearEvents s).dropK = s.dropK := rfl
@[simp] theorem clearEvents_lastEdgeTs (s : State) : (clearEvents s).lastEdgeTs = s.lastEdgeTs := rfl
@[simp] theorem clearEvents_edgeInterval (s : State) : (clearEvents s).edgeInterval = s.edgeInterval := rfl
@[simp] theorem clearEvents_lastStatusTs (s : State) : (clearEvents s).lastStatusTs = s.lastStatusTs := rfl
@[simp] theorem clearEvents_statusSeen (s : State) : (clearEvents s).statusSeen = s.statusSeen := rfl
@[simp] theorem clearEvents_lastDataTs (s : State) : (clearEvents s).lastDataTs = s.lastDataTs := rfl
@[simp] theorem clearEvents_captureArmed (s : State) : (clearEvents s).captureArmed = s.captureArmed := rfl
@[simp] theorem clearEvents_result (s : State) : (clearEvents s).result = s.result := rfl
@[simp] theorem clearEvents_cmdOutP (s : State) : (clearEvents s).cmdOutP = s.cmdOutP := rfl
@[simp] theorem clearEvents_cmdOutK (s : State) : (clearEvents s).cmdOutK = s.cmdOutK := rfl
@[simp] theorem clearEvents_dstatP (s : State) : (clearEvents s).dstatP = s.dstatP := rfl
@[simp] theorem clearEvents_dstatK (s : State) : (clearEvents s).dstatK = s.dstatK := rfl
@[simp] theorem clearEvents_statusLed (s : State) : (clearEvents s).statusLed = s.statusLed := rfl
@[simp] theorem clearEvents_tsValid (s : State) : (clearEvents s).tsValid = s.tsValid := rfl
@[simp] theorem clearEvents_tsYear (s : State) : (clearEvents s).tsYear = s.tsYear := rfl
@[simp] theorem clearEvents_tsMonth (s : State) : (clearEvents s).tsMonth = s.tsMonth := rfl
@[simp] theorem clearEvents_tsDay (s : State) : (clearEvents s).tsDay = s.tsDay := rfl
@[simp] theorem clearEvents_tsHour (s : State) : (clearEvents s).tsHour = s.tsHour := rfl
@[simp] theorem clearEvents_tsMinute (s : State) : (clearEvents s).tsMinute = s.tsMinute := rfl
@[simp] theorem clearEvents_tsOk (s : State) : (clearEvents s).tsOk = s.tsOk := rfl
@[simp] theorem clearEvents_dataOut (s : State) : (clearEvents s).dataOut = s.dataOut := rfl

@[simp] theorem clearEvents_evP (s : State) : (clearEvents s).evP = .none := rfl
@[simp] theorem clearEvents_evK (s : State) : (clearEvents s).evK = .none := rfl

/-! `beginPoll` (R140, R142) -/

@[simp] theorem beginPoll_cfg (now : Word) (s : State) : (beginPoll now s).cfg = s.cfg := rfl
@[simp] theorem beginPoll_pending (now : Word) (s : State) : (beginPoll now s).pending = s.pending := rfl
@[simp] theorem beginPoll_bldP (now : Word) (s : State) : (beginPoll now s).bldP = s.bldP := rfl
@[simp] theorem beginPoll_bldK (now : Word) (s : State) : (beginPoll now s).bldK = s.bldK := rfl
@[simp] theorem beginPoll_cmpP (now : Word) (s : State) : (beginPoll now s).cmpP = s.cmpP := rfl
@[simp] theorem beginPoll_cmpK (now : Word) (s : State) : (beginPoll now s).cmpK = s.cmpK := rfl
@[simp] theorem beginPoll_prvP (now : Word) (s : State) : (beginPoll now s).prvP = s.prvP := rfl
@[simp] theorem beginPoll_prvK (now : Word) (s : State) : (beginPoll now s).prvK = s.prvK := rfl
@[simp] theorem beginPoll_dropP (now : Word) (s : State) : (beginPoll now s).dropP = s.dropP := rfl
@[simp] theorem beginPoll_dropK (now : Word) (s : State) : (beginPoll now s).dropK = s.dropK := rfl
@[simp] theorem beginPoll_lastEdgeTs (now : Word) (s : State) : (beginPoll now s).lastEdgeTs = s.lastEdgeTs := rfl
@[simp] theorem beginPoll_edgeInterval (now : Word) (s : State) : (beginPoll now s).edgeInterval = s.edgeInterval := rfl
@[simp] theorem beginPoll_lastStatusTs (now : Word) (s : State) : (beginPoll now s).lastStatusTs = s.lastStatusTs := rfl
@[simp] theorem beginPoll_statusSeen (now : Word) (s : State) : (beginPoll now s).statusSeen = s.statusSeen := rfl
@[simp] theorem beginPoll_lastDataTs (now : Word) (s : State) : (beginPoll now s).lastDataTs = s.lastDataTs := rfl
@[simp] theorem beginPoll_captureArmed (now : Word) (s : State) : (beginPoll now s).captureArmed = s.captureArmed := rfl
@[simp] theorem beginPoll_result (now : Word) (s : State) : (beginPoll now s).result = s.result := rfl
@[simp] theorem beginPoll_cmdOutP (now : Word) (s : State) : (beginPoll now s).cmdOutP = s.cmdOutP := rfl
@[simp] theorem beginPoll_cmdOutK (now : Word) (s : State) : (beginPoll now s).cmdOutK = s.cmdOutK := rfl
@[simp] theorem beginPoll_dstatP (now : Word) (s : State) : (beginPoll now s).dstatP = s.dstatP := rfl
@[simp] theorem beginPoll_dstatK (now : Word) (s : State) : (beginPoll now s).dstatK = s.dstatK := rfl
@[simp] theorem beginPoll_evP (now : Word) (s : State) : (beginPoll now s).evP = s.evP := rfl
@[simp] theorem beginPoll_evK (now : Word) (s : State) : (beginPoll now s).evK = s.evK := rfl
@[simp] theorem beginPoll_tsYear (now : Word) (s : State) : (beginPoll now s).tsYear = s.tsYear := rfl
@[simp] theorem beginPoll_tsMonth (now : Word) (s : State) : (beginPoll now s).tsMonth = s.tsMonth := rfl
@[simp] theorem beginPoll_tsDay (now : Word) (s : State) : (beginPoll now s).tsDay = s.tsDay := rfl
@[simp] theorem beginPoll_tsHour (now : Word) (s : State) : (beginPoll now s).tsHour = s.tsHour := rfl
@[simp] theorem beginPoll_tsMinute (now : Word) (s : State) : (beginPoll now s).tsMinute = s.tsMinute := rfl
@[simp] theorem beginPoll_tsOk (now : Word) (s : State) : (beginPoll now s).tsOk = s.tsOk := rfl
@[simp] theorem beginPoll_dataOut (now : Word) (s : State) : (beginPoll now s).dataOut = s.dataOut := rfl

@[simp] theorem beginPoll_tsValid (now : Word) (s : State) : (beginPoll now s).tsValid = false := rfl
@[simp] theorem beginPoll_statusLed (now : Word) (s : State) : (beginPoll now s).statusLed = statusIndicator s now := rfl

/-! `endPoll` (R146) -/

@[simp] theorem endPoll_cfg (s : State) : (endPoll s).cfg = s.cfg := rfl
@[simp] theorem endPoll_pending (s : State) : (endPoll s).pending = s.pending := rfl
@[simp] theorem endPoll_bldP (s : State) : (endPoll s).bldP = s.bldP := rfl
@[simp] theorem endPoll_bldK (s : State) : (endPoll s).bldK = s.bldK := rfl
@[simp] theorem endPoll_cmpP (s : State) : (endPoll s).cmpP = s.cmpP := rfl
@[simp] theorem endPoll_cmpK (s : State) : (endPoll s).cmpK = s.cmpK := rfl
@[simp] theorem endPoll_prvP (s : State) : (endPoll s).prvP = s.prvP := rfl
@[simp] theorem endPoll_prvK (s : State) : (endPoll s).prvK = s.prvK := rfl
@[simp] theorem endPoll_dropP (s : State) : (endPoll s).dropP = s.dropP := rfl
@[simp] theorem endPoll_dropK (s : State) : (endPoll s).dropK = s.dropK := rfl
@[simp] theorem endPoll_lastEdgeTs (s : State) : (endPoll s).lastEdgeTs = s.lastEdgeTs := rfl
@[simp] theorem endPoll_edgeInterval (s : State) : (endPoll s).edgeInterval = s.edgeInterval := rfl
@[simp] theorem endPoll_lastStatusTs (s : State) : (endPoll s).lastStatusTs = s.lastStatusTs := rfl
@[simp] theorem endPoll_statusSeen (s : State) : (endPoll s).statusSeen = s.statusSeen := rfl
@[simp] theorem endPoll_lastDataTs (s : State) : (endPoll s).lastDataTs = s.lastDataTs := rfl
@[simp] theorem endPoll_captureArmed (s : State) : (endPoll s).captureArmed = s.captureArmed := rfl
@[simp] theorem endPoll_cmdOutP (s : State) : (endPoll s).cmdOutP = s.cmdOutP := rfl
@[simp] theorem endPoll_cmdOutK (s : State) : (endPoll s).cmdOutK = s.cmdOutK := rfl
@[simp] theorem endPoll_dstatP (s : State) : (endPoll s).dstatP = s.dstatP := rfl
@[simp] theorem endPoll_dstatK (s : State) : (endPoll s).dstatK = s.dstatK := rfl
@[simp] theorem endPoll_evP (s : State) : (endPoll s).evP = s.evP := rfl
@[simp] theorem endPoll_evK (s : State) : (endPoll s).evK = s.evK := rfl
@[simp] theorem endPoll_statusLed (s : State) : (endPoll s).statusLed = s.statusLed := rfl
@[simp] theorem endPoll_tsValid (s : State) : (endPoll s).tsValid = s.tsValid := rfl
@[simp] theorem endPoll_tsYear (s : State) : (endPoll s).tsYear = s.tsYear := rfl
@[simp] theorem endPoll_tsMonth (s : State) : (endPoll s).tsMonth = s.tsMonth := rfl
@[simp] theorem endPoll_tsDay (s : State) : (endPoll s).tsDay = s.tsDay := rfl
@[simp] theorem endPoll_tsHour (s : State) : (endPoll s).tsHour = s.tsHour := rfl
@[simp] theorem endPoll_tsMinute (s : State) : (endPoll s).tsMinute = s.tsMinute := rfl
@[simp] theorem endPoll_tsOk (s : State) : (endPoll s).tsOk = s.tsOk := rfl
@[simp] theorem endPoll_dataOut (s : State) : (endPoll s).dataOut = s.dataOut := rfl

@[simp] theorem endPoll_result (s : State) : (endPoll s).result = resultCode s := rfl

/-! `edgeTiming` (R120, R121) -/

@[simp] theorem edgeTiming_cfg (now : Word) (s : State) : (edgeTiming now s).cfg = s.cfg := by
  simp only [edgeTiming]; split <;> rfl
@[simp] theorem edgeTiming_pending (now : Word) (s : State) : (edgeTiming now s).pending = s.pending := by
  simp only [edgeTiming]; split <;> rfl
@[simp] theorem edgeTiming_bldP (now : Word) (s : State) : (edgeTiming now s).bldP = s.bldP := by
  simp only [edgeTiming]; split <;> rfl
@[simp] theorem edgeTiming_cmpP (now : Word) (s : State) : (edgeTiming now s).cmpP = s.cmpP := by
  simp only [edgeTiming]; split <;> rfl
@[simp] theorem edgeTiming_prvP (now : Word) (s : State) : (edgeTiming now s).prvP = s.prvP := by
  simp only [edgeTiming]; split <;> rfl
@[simp] theorem edgeTiming_prvK (now : Word) (s : State) : (edgeTiming now s).prvK = s.prvK := by
  simp only [edgeTiming]; split <;> rfl
@[simp] theorem edgeTiming_dropP (now : Word) (s : State) : (edgeTiming now s).dropP = s.dropP := by
  simp only [edgeTiming]; split <;> rfl
@[simp] theorem edgeTiming_lastStatusTs (now : Word) (s : State) : (edgeTiming now s).lastStatusTs = s.lastStatusTs := by
  simp only [edgeTiming]; split <;> rfl
@[simp] theorem edgeTiming_statusSeen (now : Word) (s : State) : (edgeTiming now s).statusSeen = s.statusSeen := by
  simp only [edgeTiming]; split <;> rfl
@[simp] theorem edgeTiming_lastDataTs (now : Word) (s : State) : (edgeTiming now s).lastDataTs = s.lastDataTs := by
  simp only [edgeTiming]; split <;> rfl
@[simp] theorem edgeTiming_captureArmed (now : Word) (s : State) : (edgeTiming now s).captureArmed = s.captureArmed := by
  simp only [edgeTiming]; split <;> rfl
@[simp] theorem edgeTiming_result (now : Word) (s : State) : (edgeTiming now s).result = s.result := by
  simp only [edgeTiming]; split <;> rfl
@[simp] theorem edgeTiming_cmdOutP (now : Word) (s : State) : (edgeTiming now s).cmdOutP = s.cmdOutP := by
  simp only [edgeTiming]; split <;> rfl
@[simp] theorem edgeTiming_cmdOutK (now : Word) (s : State) : (edgeTiming now s).cmdOutK = s.cmdOutK := by
  simp only [edgeTiming]; split <;> rfl
@[simp] theorem edgeTiming_dstatP (now : Word) (s : State) : (edgeTiming now s).dstatP = s.dstatP := by
  simp only [edgeTiming]; split <;> rfl
@[simp] theorem edgeTiming_dstatK (now : Word) (s : State) : (edgeTiming now s).dstatK = s.dstatK := by
  simp only [edgeTiming]; split <;> rfl
@[simp] theorem edgeTiming_evP (now : Word) (s : State) : (edgeTiming now s).evP = s.evP := by
  simp only [edgeTiming]; split <;> rfl
@[simp] theorem edgeTiming_evK (now : Word) (s : State) : (edgeTiming now s).evK = s.evK := by
  simp only [edgeTiming]; split <;> rfl
@[simp] theorem edgeTiming_statusLed (now : Word) (s : State) : (edgeTiming now s).statusLed = s.statusLed := by
  simp only [edgeTiming]; split <;> rfl
@[simp] theorem edgeTiming_tsValid (now : Word) (s : State) : (edgeTiming now s).tsValid = s.tsValid := by
  simp only [edgeTiming]; split <;> rfl
@[simp] theorem edgeTiming_tsYear (now : Word) (s : State) : (edgeTiming now s).tsYear = s.tsYear := by
  simp only [edgeTiming]; split <;> rfl
@[simp] theorem edgeTiming_tsMonth (now : Word) (s : State) : (edgeTiming now s).tsMonth = s.tsMonth := by
  simp only [edgeTiming]; split <;> rfl
@[simp] theorem edgeTiming_tsDay (now : Word) (s : State) : (edgeTiming now s).tsDay = s.tsDay := by
  simp only [edgeTiming]; split <;> rfl
@[simp] theorem edgeTiming_tsHour (now : Word) (s : State) : (edgeTiming now s).tsHour = s.tsHour := by
  simp only [edgeTiming]; split <;> rfl
@[simp] theorem edgeTiming_tsMinute (now : Word) (s : State) : (edgeTiming now s).tsMinute = s.tsMinute := by
  simp only [edgeTiming]; split <;> rfl
@[simp] theorem edgeTiming_tsOk (now : Word) (s : State) : (edgeTiming now s).tsOk = s.tsOk := by
  simp only [edgeTiming]; split <;> rfl
@[simp] theorem edgeTiming_dataOut (now : Word) (s : State) : (edgeTiming now s).dataOut = s.dataOut := by
  simp only [edgeTiming]; split <;> rfl

@[simp] theorem edgeTiming_lastEdgeTs (now : Word) (s : State) : (edgeTiming now s).lastEdgeTs = now := by
  simp only [edgeTiming]; split <;> rfl
@[simp] theorem edgeTiming_edgeInterval (now : Word) (s : State) :
    (edgeTiming now s).edgeInterval = timeSince now s.lastEdgeTs := by
  simp only [edgeTiming]; split <;> rfl
theorem edgeTiming_bldK (now : Word) (s : State) :
    (edgeTiming now s).bldK = if captureGap s.cfg (timeSince now s.lastEdgeTs) then [] else s.bldK := by
  simp only [edgeTiming]; split <;> rfl
theorem edgeTiming_cmpK (now : Word) (s : State) :
    (edgeTiming now s).cmpK = if captureGap s.cfg (timeSince now s.lastEdgeTs) then s.bldK else s.cmpK := by
  simp only [edgeTiming]; split <;> rfl
theorem edgeTiming_dropK (now : Word) (s : State) :
    (edgeTiming now s).dropK = if captureGap s.cfg (timeSince now s.lastEdgeTs) then false else s.dropK := by
  simp only [edgeTiming]; split <;> rfl

/-! `edge` (R120, R130) -/

@[simp] theorem edge_cfg (r : Role) (d : Bool) (now : Word) (s : State) : (edge r d now s).cfg = s.cfg := by
  simp only [edge]; split <;> simp
@[simp] theorem edge_pending (r : Role) (d : Bool) (now : Word) (s : State) : (edge r d now s).pending = s.pending := by
  simp only [edge]; split <;> simp
@[simp] theorem edge_cmpP (r : Role) (d : Bool) (now : Word) (s : State) : (edge r d now s).cmpP = s.cmpP := by
  simp only [edge]; split <;> simp
@[simp] theorem edge_prvP (r : Role) (d : Bool) (now : Word) (s : State) : (edge r d now s).prvP = s.prvP := by
  simp only [edge]; split <;> simp
@[simp] theorem edge_prvK (r : Role) (d : Bool) (now : Word) (s : State) : (edge r d now s).prvK = s.prvK := by
  simp only [edge]; split <;> simp
@[simp] theorem edge_lastStatusTs (r : Role) (d : Bool) (now : Word) (s : State) : (edge r d now s).lastStatusTs = s.lastStatusTs := by
  simp only [edge]; split <;> simp
@[simp] theorem edge_statusSeen (r : Role) (d : Bool) (now : Word) (s : State) : (edge r d now s).statusSeen = s.statusSeen := by
  simp only [edge]; split <;> simp
@[simp] theorem edge_lastDataTs (r : Role) (d : Bool) (now : Word) (s : State) : (edge r d now s).lastDataTs = s.lastDataTs := by
  simp only [edge]; split <;> simp
@[simp] theorem edge_captureArmed (r : Role) (d : Bool) (now : Word) (s : State) : (edge r d now s).captureArmed = s.captureArmed := by
  simp only [edge]; split <;> simp
@[simp] theorem edge_result (r : Role) (d : Bool) (now : Word) (s : State) : (edge r d now s).result = s.result := by
  simp only [edge]; split <;> simp
@[simp] theorem edge_cmdOutP (r : Role) (d : Bool) (now : Word) (s : State) : (edge r d now s).cmdOutP = s.cmdOutP := by
  simp only [edge]; split <;> simp
@[simp] theorem edge_cmdOutK (r : Role) (d : Bool) (now : Word) (s : State) : (edge r d now s).cmdOutK = s.cmdOutK := by
  simp only [edge]; split <;> simp
@[simp] theorem edge_dstatP (r : Role) (d : Bool) (now : Word) (s : State) : (edge r d now s).dstatP = s.dstatP := by
  simp only [edge]; split <;> simp
@[simp] theorem edge_dstatK (r : Role) (d : Bool) (now : Word) (s : State) : (edge r d now s).dstatK = s.dstatK := by
  simp only [edge]; split <;> simp
@[simp] theorem edge_evP (r : Role) (d : Bool) (now : Word) (s : State) : (edge r d now s).evP = s.evP := by
  simp only [edge]; split <;> simp
@[simp] theorem edge_evK (r : Role) (d : Bool) (now : Word) (s : State) : (edge r d now s).evK = s.evK := by
  simp only [edge]; split <;> simp
@[simp] theorem edge_statusLed (r : Role) (d : Bool) (now : Word) (s : State) : (edge r d now s).statusLed = s.statusLed := by
  simp only [edge]; split <;> simp
@[simp] theorem edge_tsValid (r : Role) (d : Bool) (now : Word) (s : State) : (edge r d now s).tsValid = s.tsValid := by
  simp only [edge]; split <;> simp
@[simp] theorem edge_tsYear (r : Role) (d : Bool) (now : Word) (s : State) : (edge r d now s).tsYear = s.tsYear := by
  simp only [edge]; split <;> simp
@[simp] theorem edge_tsMonth (r : Role) (d : Bool) (now : Word) (s : State) : (edge r d now s).tsMonth = s.tsMonth := by
  simp only [edge]; split <;> simp
@[simp] theorem edge_tsDay (r : Role) (d : Bool) (now : Word) (s : State) : (edge r d now s).tsDay = s.tsDay := by
  simp only [edge]; split <;> simp
@[simp] theorem edge_tsHour (r : Role) (d : Bool) (now : Word) (s : State) : (edge r d now s).tsHour = s.tsHour := by
  simp only [edge]; split <;> simp
@[simp] theorem edge_tsMinute (r : Role) (d : Bool) (now : Word) (s : State) : (edge r d now s).tsMinute = s.tsMinute := by
  simp only [edge]; split <;> simp
@[simp] theorem edge_tsOk (r : Role) (d : Bool) (now : Word) (s : State) : (edge r d now s).tsOk = s.tsOk := by
  simp only [edge]; split <;> simp
@[simp] theorem edge_dataOut (r : Role) (d : Bool) (now : Word) (s : State) : (edge r d now s).dataOut = s.dataOut := by
  simp only [edge]; split <;> simp

/-! `acceptPorts` (R58, R59) -/

@[simp] theorem State.acceptPorts_cfg (s : State) (p : PortSample) : (s.acceptPorts p).cfg = s.cfg := rfl
@[simp] theorem State.acceptPorts_bldP (s : State) (p : PortSample) : (s.acceptPorts p).bldP = s.bldP := rfl
@[simp] theorem State.acceptPorts_bldK (s : State) (p : PortSample) : (s.acceptPorts p).bldK = s.bldK := rfl
@[simp] theorem State.acceptPorts_cmpP (s : State) (p : PortSample) : (s.acceptPorts p).cmpP = s.cmpP := rfl
@[simp] theorem State.acceptPorts_cmpK (s : State) (p : PortSample) : (s.acceptPorts p).cmpK = s.cmpK := rfl
@[simp] theorem State.acceptPorts_prvP (s : State) (p : PortSample) : (s.acceptPorts p).prvP = s.prvP := rfl
@[simp] theorem State.acceptPorts_prvK (s : State) (p : PortSample) : (s.acceptPorts p).prvK = s.prvK := rfl
@[simp] theorem State.acceptPorts_dropP (s : State) (p : PortSample) : (s.acceptPorts p).dropP = s.dropP := rfl
@[simp] theorem State.acceptPorts_dropK (s : State) (p : PortSample) : (s.acceptPorts p).dropK = s.dropK := rfl
@[simp] theorem State.acceptPorts_lastEdgeTs (s : State) (p : PortSample) : (s.acceptPorts p).lastEdgeTs = s.lastEdgeTs := rfl
@[simp] theorem State.acceptPorts_edgeInterval (s : State) (p : PortSample) : (s.acceptPorts p).edgeInterval = s.edgeInterval := rfl
@[simp] theorem State.acceptPorts_lastStatusTs (s : State) (p : PortSample) : (s.acceptPorts p).lastStatusTs = s.lastStatusTs := rfl
@[simp] theorem State.acceptPorts_statusSeen (s : State) (p : PortSample) : (s.acceptPorts p).statusSeen = s.statusSeen := rfl
@[simp] theorem State.acceptPorts_lastDataTs (s : State) (p : PortSample) : (s.acceptPorts p).lastDataTs = s.lastDataTs := rfl
@[simp] theorem State.acceptPorts_captureArmed (s : State) (p : PortSample) : (s.acceptPorts p).captureArmed = s.captureArmed := rfl
@[simp] theorem State.acceptPorts_result (s : State) (p : PortSample) : (s.acceptPorts p).result = s.result := rfl
@[simp] theorem State.acceptPorts_cmdOutP (s : State) (p : PortSample) : (s.acceptPorts p).cmdOutP = s.cmdOutP := rfl
@[simp] theorem State.acceptPorts_cmdOutK (s : State) (p : PortSample) : (s.acceptPorts p).cmdOutK = s.cmdOutK := rfl
@[simp] theorem State.acceptPorts_dstatP (s : State) (p : PortSample) : (s.acceptPorts p).dstatP = s.dstatP := rfl
@[simp] theorem State.acceptPorts_dstatK (s : State) (p : PortSample) : (s.acceptPorts p).dstatK = s.dstatK := rfl
@[simp] theorem State.acceptPorts_evP (s : State) (p : PortSample) : (s.acceptPorts p).evP = s.evP := rfl
@[simp] theorem State.acceptPorts_evK (s : State) (p : PortSample) : (s.acceptPorts p).evK = s.evK := rfl
@[simp] theorem State.acceptPorts_statusLed (s : State) (p : PortSample) : (s.acceptPorts p).statusLed = s.statusLed := rfl
@[simp] theorem State.acceptPorts_tsValid (s : State) (p : PortSample) : (s.acceptPorts p).tsValid = s.tsValid := rfl
@[simp] theorem State.acceptPorts_tsYear (s : State) (p : PortSample) : (s.acceptPorts p).tsYear = s.tsYear := rfl
@[simp] theorem State.acceptPorts_tsMonth (s : State) (p : PortSample) : (s.acceptPorts p).tsMonth = s.tsMonth := rfl
@[simp] theorem State.acceptPorts_tsDay (s : State) (p : PortSample) : (s.acceptPorts p).tsDay = s.tsDay := rfl
@[simp] theorem State.acceptPorts_tsHour (s : State) (p : PortSample) : (s.acceptPorts p).tsHour = s.tsHour := rfl
@[simp] theorem State.acceptPorts_tsMinute (s : State) (p : PortSample) : (s.acceptPorts p).tsMinute = s.tsMinute := rfl
@[simp] theorem State.acceptPorts_tsOk (s : State) (p : PortSample) : (s.acceptPorts p).tsOk = s.tsOk := rfl
@[simp] theorem State.acceptPorts_dataOut (s : State) (p : PortSample) : (s.acceptPorts p).dataOut = s.dataOut := rfl
@[simp] theorem State.acceptPorts_pending (s : State) (p : PortSample) :
    (s.acceptPorts p).pending = s.pending ++ p.requests := rfl

end Sys2Proof.Machine
end

