-- ==== Sys2Proof/Laws/Capture.lean ====
section
/-! SUPPORT. What EDGE can do, once (spec/41_capture.md R120 to R125): disarmed, armed without a gap, armed with a gap. -/
namespace Sys2Proof.Machine

theorem edge_disarmed {r : Role} {d : Bool} {now : Word} {s : State} (h : s.captureArmed = false) :
    edge r d now s = s := by
  simp [edge, h]

theorem edge_armed {r : Role} {d : Bool} {now : Word} {s : State} (h : s.captureArmed = true) :
    edge r d now s = appendBit r d (edgeTiming now s) := by
  simp [edge, h]

@[simp] theorem captureGap_eq_true {c : Config} {i : Word} : captureGap c i = true ↔ c.tBoundary - c.mCapture < i.toNat := by
  simp [captureGap]

/-- Steps 1 and 2 with a gap. -/
theorem edgeTiming_of_gap {now : Word} {s : State} (h : s.cfg.tBoundary - s.cfg.mCapture < (now - s.lastEdgeTs).toNat) :
    edgeTiming now s =
      { s with lastEdgeTs := now, edgeInterval := now - s.lastEdgeTs, cmpK := s.bldK, bldK := [], dropK := false } := by
  have hg : captureGap s.cfg (timeSince now s.lastEdgeTs) = true := captureGap_eq_true.mpr h
  simp only [edgeTiming, hg, ↓reduceIte]
  rfl

/-- Steps 1 and 2 without a gap. -/
theorem edgeTiming_of_no_gap {now : Word} {s : State}
    (h : ¬ s.cfg.tBoundary - s.cfg.mCapture < (now - s.lastEdgeTs).toNat) :
    edgeTiming now s = { s with lastEdgeTs := now, edgeInterval := now - s.lastEdgeTs } := by
  have hg : ¬ captureGap s.cfg (timeSince now s.lastEdgeTs) = true := fun e => h (captureGap_eq_true.mp e)
  simp only [edgeTiming, hg]
  rfl

theorem appendBit_panel_of_room {d : Bool} {s : State} (h : s.bldP.length < 200) :
    appendBit .panel d s = { s with bldP := s.bldP ++ [d] } := by
  simp [appendBit, maxBits, h]

theorem appendBit_panel_of_full {d : Bool} {s : State} (h : ¬ s.bldP.length < 200) :
    appendBit .panel d s = { s with dropP := true } := by
  simp [appendBit, maxBits, h]

theorem appendBit_keypad_of_room {d : Bool} {s : State} (h : s.bldK.length < 200) :
    appendBit .keypad d s = { s with bldK := s.bldK ++ [d] } := by
  simp [appendBit, maxBits, h]

theorem appendBit_keypad_of_full {d : Bool} {s : State} (h : ¬ s.bldK.length < 200) :
    appendBit .keypad d s = { s with dropK := true } := by
  simp [appendBit, maxBits, h]

/-- The two cases in one, for a sequence within its capacity: the first 200 of the longer sequence are kept. -/
theorem appendBit_panel_eq_take {d : Bool} {s : State} (h : s.bldP.length ≤ 200) :
    appendBit .panel d s =
      { s with bldP := (s.bldP ++ [d]).take 200, dropP := s.dropP || decide (200 < s.bldP.length + 1) } := by
  by_cases hl : s.bldP.length < 200
  · rw [appendBit_panel_of_room hl, List.take_of_length_le (by simp; omega)]
    simp [show ¬ 200 < s.bldP.length + 1 by omega]
  · have hf : s.bldP.length = 200 := by omega
    rw [appendBit_panel_of_full hl, List.take_append_of_le_length (by omega), List.take_of_length_le (by omega)]
    simp [hf]

theorem appendBit_keypad_eq_take {d : Bool} {s : State} (h : s.bldK.length ≤ 200) :
    appendBit .keypad d s =
      { s with bldK := (s.bldK ++ [d]).take 200, dropK := s.dropK || decide (200 < s.bldK.length + 1) } := by
  by_cases hl : s.bldK.length < 200
  · rw [appendBit_keypad_of_room hl, List.take_of_length_le (by simp; omega)]
    simp [show ¬ 200 < s.bldK.length + 1 by omega]
  · have hf : s.bldK.length = 200 := by omega
    rw [appendBit_keypad_of_full hl, List.take_append_of_le_length (by omega), List.take_of_length_le (by omega)]
    simp [hf]

end Sys2Proof.Machine
end

