-- ==== Sys2Proof/Laws/Keypad.lean ====
section
/-! SUPPORT. What the keypad decoder can do, once (spec/44_keypad_decode.md R200): the row a word names, noise, short, accepted. -/
namespace Sys2Proof.Machine

/-- Choosing a row and then applying a function is choosing among the values. -/
theorem keypadCase_map {α β : Type} (f : α → β) (c : Config) (w : Bits) (v0 v1 v2 v3 v4 v5 : α) :
    f (keypadCase c w v0 v1 v2 v3 v4 v5) = keypadCase c w (f v0) (f v1) (f v2) (f v3) (f v4) (f v5) := by
  unfold keypadCase
  split
  · split
    · rfl
    · simp only [apply_ite f]
  · rfl

/-- Which row a keypad word names (R79). -/
theorem keypadCase_cases {α : Type} (c : Config) (w : Bits) (v0 v1 v2 v3 v4 v5 : α) :
    (false ∉ w ∧ keypadCase c w v0 v1 v2 v3 v4 v5 = v0) ∨
    (false ∈ w ∧ w.length < 8 ∧ keypadCase c w v0 v1 v2 v3 v4 v5 = v5) ∨
    (false ∈ w ∧ ∃ code tail, w = byteBits code ++ tail ∧
      keypadCase c w v0 v1 v2 v3 v4 v5 =
        if code = 0xff then v1 else if code = c.kpCodeFire then v2 else if code = c.kpCodeAux then v3
        else if code = c.kpCodePanic then v4 else v5) := by
  by_cases hz : false ∈ w
  · by_cases hl : 8 ≤ w.length
    · refine .inr (.inr ⟨hz, _, _, word_split hl, ?_⟩)
      simp only [keypadCase, hasZero_eq_true.mpr hz, extract_of_inRange (show 0 + 8 ≤ w.length by omega), ↓reduceIte]
    · refine .inr (.inl ⟨hz, by omega, ?_⟩)
      simp only [keypadCase, hasZero_eq_true.mpr hz, extract_of_short (show w.length < 0 + 8 by omega), ↓reduceIte]
  · refine .inl ⟨hz, ?_⟩
    have h : ¬ hasZero w = true := fun h => hz (hasZero_eq_true.mp h)
    simp only [keypadCase, h, Bool.false_eq_true, ↓reduceIte]

/-- Why a word is noise: no 0 bit in it (R200). -/
theorem keypadRun_noise {w : Bits} (h : false ∉ w) (now : Word) (s : State) :
    keypadRun w now s = .next (reject .keypad .noise s) := by
  have hz : hasZero w = false := by simpa [← hasZero_eq_true] using h
  simp [keypadRun, keypadGate, hz]

/-- A word too short for its two bytes (R201). -/
theorem keypadRun_short {w : Bits} {s : State} (h : false ∈ w) (hl : ¬ (8 ≤ w.length ∧ s.cfg.kpByte2Off + 8 ≤ w.length))
    (now : Word) : keypadRun w now s = .next (reject .keypad .indexOutOfRange s) := by
  have hz : hasZero w = true := hasZero_eq_true.mpr h
  have hf : ¬ fieldsInRange w (keypadFields s.cfg) = true := by
    simpa [keypadFields] using fun h1 h2 => hl ⟨h1, h2⟩
  have hf' : fieldsInRange w (keypadFields s.cfg) = false := Bool.not_eq_true _ ▸ hf
  simp [keypadRun, keypadGate, hz, hf']

/-- An accepted word (R202 to R210). -/
theorem keypadRun_accept {w : Bits} {s : State} (h : false ∈ w) (h8 : 8 ≤ w.length)
    (hb : s.cfg.kpByte2Off + 8 ≤ w.length) (now : Word) :
    keypadRun w now s = .next (keypadAccept w (BitVec.ofNat 8 (fieldAt w 0 8))
      (BitVec.ofNat 8 (fieldAt w s.cfg.kpByte2Off 8)) now s) := by
  have hz : hasZero w = true := hasZero_eq_true.mpr h
  have hf : fieldsInRange w (keypadFields s.cfg) = true := by simp [keypadFields, h8, hb]
  simp [keypadRun, keypadGate, hz, hf, extract_of_inRange (show 0 + 8 ≤ w.length by omega), extract_of_inRange hb]

/-- Every keypad row is KeypadDecode of the word it stands for. -/
theorem keypadRow_eq (w : Bits) (now : Word) (s : State) : keypadRow w now s = keypadRun w now s := by
  unfold keypadRow
  rcases keypadCase_cases s.cfg w (execKNoise w.length s) (execKButton (w.drop 8) now s) (execKFire (w.drop 8) now s)
    (execKAux (w.drop 8) now s) (execKPanic (w.drop 8) now s) (execKOther w now s) with
    ⟨hz, he⟩ | ⟨_, _, he⟩ | ⟨_, code, tail, rfl, he⟩
  · rw [he, execKNoise, keypadRun_noise (by simp), keypadRun_noise hz]
  · exact he
  · rw [he, drop_command]
    split_ifs <;> (try subst_vars) <;> rfl

/-- exec of the row a keypad word decodes to is KeypadDecode of the word. -/
theorem exec_decodeKeypad (w : Bits) (now : Word) (s : State) :
    exec (decodeKeypad s.cfg w now) s = keypadRun w now s := by
  rw [← keypadRow_eq]
  exact keypadCase_map (fun i => exec i s) s.cfg w _ _ _ _ _ _

/-- What KeypadDecode can do: reject with nothing committed, or accept. -/
theorem keypadRun_cases (w : Bits) (now : Word) (s : State) :
    (∃ why ∈ [DStat.noise, .indexOutOfRange], keypadRun w now s = .next (reject .keypad why s)) ∨
    (false ∈ w ∧ 8 ≤ w.length ∧ s.cfg.kpByte2Off + 8 ≤ w.length ∧ ∃ code kb2,
      keypadRun w now s = .next (keypadAccept w code kb2 now s)) := by
  by_cases hz : false ∈ w
  · by_cases hl : 8 ≤ w.length ∧ s.cfg.kpByte2Off + 8 ≤ w.length
    · exact .inr ⟨hz, hl.1, hl.2, _, _, keypadRun_accept hz hl.1 hl.2 now⟩
    · exact .inl ⟨.indexOutOfRange, by simp, keypadRun_short hz hl now⟩
  · exact .inl ⟨.noise, by simp, keypadRun_noise hz now s⟩

end Sys2Proof.Machine
end

