-- ==== Sys2Proof/Laws/Panel.lean ====
section
/-! SUPPORT. What the panel decoder can do, once (spec/43_panel_decode.md R160): a row selected by its command byte, the rejections in their order, and the accepted branches. -/
namespace Sys2Proof.Machine

/-! ## The branch of a command byte -/

/-- FIELDS(code) (R164). -/
def panelFields (c : Config) (code : Byte) : List FieldSpec :=
  panelCase code noFields (statusFields c) (datetimeFields c) (zoneFields c.zoneOff27) (zoneFields c.zoneOff2D)
    (zoneFields c.zoneOff34) (zoneFields c.zoneOff3E) noFields noFields noFields noFields noFields noFields noFields
    noFields noFields

/-- The branch a command byte selects. -/
def panelBranch (c : Config) (code : Byte) (a : Bool) : Branch :=
  panelCase code (messageBranch .none) statusBranch (datetimeBranch a) (zoneBranch .a c.zoneOff27)
    (zoneBranch .b c.zoneOff2D) (zoneBranch .c c.zoneOff34) (zoneBranch .d c.zoneOff3E) (messageBranch (.label 0x11))
    (messageBranch (.label 0x0a)) (messageBranch (.label 0x5d)) (messageBranch (.label 0x63))
    (messageBranch (.label 0x64)) (messageBranch (.label 0x69)) (messageBranch (.label 0x39))
    (messageBranch (.label 0xb1)) (messageBranch (.raw code))

/-- The status of an accepted word (R160). -/
def panelStatus (code : Byte) : DStat :=
  panelCase code .nullCommand .ok .ok .ok .ok .ok .ok .ok .ok .ok .ok .ok .ok .ok .ok .unknownCommand

/-- Choosing a row and then applying a function is choosing among the values. -/
theorem panelCase_map {α β : Type} (f : α → β) (code : Byte) (v0 v1 v2 v3 v4 v5 v6 v7 v8 v9 v10 v11 v12 v13 v14 v15 : α) :
    f (panelCase code v0 v1 v2 v3 v4 v5 v6 v7 v8 v9 v10 v11 v12 v13 v14 v15) =
      panelCase code (f v0) (f v1) (f v2) (f v3) (f v4) (f v5) (f v6) (f v7) (f v8) (f v9) (f v10) (f v11) (f v12)
        (f v13) (f v14) (f v15) := by
  simp only [panelCase, apply_ite f]

/-- A code that R77 does not name chooses the default row. -/
theorem panelCase_raw {α : Type} {code : Byte} (h : code ∉ namedPanelCodes)
    (v0 v1 v2 v3 v4 v5 v6 v7 v8 v9 v10 v11 v12 v13 v14 v15 : α) :
    panelCase code v0 v1 v2 v3 v4 v5 v6 v7 v8 v9 v10 v11 v12 v13 v14 v15 = v15 := by
  simp only [namedPanelCodes, List.mem_cons, List.not_mem_nil, or_false, not_or] at h
  obtain ⟨h0, h1, h2, h3, h4, h5, h6, h7, h8, h9, h10, h11, h12, h13, h14⟩ := h
  simp only [panelCase, if_neg h0, if_neg h1, if_neg h2, if_neg h3, if_neg h4, if_neg h5, if_neg h6, if_neg h7,
    if_neg h8, if_neg h9, if_neg h10, if_neg h11, if_neg h12, if_neg h13, if_neg h14]

/-- A command byte is one of the fifteen named codes, or none of them. -/
theorem panelCode_cases {P : Byte → Prop} (code : Byte) (null : P 0x00) (status : P 0x05) (datetime : P 0xa5)
    (zoneA : P 0x27) (zoneB : P 0x2d) (zoneC : P 0x34) (zoneD : P 0x3e) (label11 : P 0x11) (label0A : P 0x0a)
    (label5D : P 0x5d) (label63 : P 0x63) (label64 : P 0x64) (label69 : P 0x69) (label39 : P 0x39) (labelB1 : P 0xb1)
    (raw : code ∉ namedPanelCodes → P code) : P code := by
  by_cases h : code ∈ namedPanelCodes
  · simp only [namedPanelCodes, List.mem_cons, List.not_mem_nil, or_false] at h
    rcases h with rfl | rfl | rfl | rfl | rfl | rfl | rfl | rfl | rfl | rfl | rfl | rfl | rfl | rfl | rfl <;> assumption
  · exact raw h

theorem panelRun_of_rejected {code : Byte} {fs : List FieldSpec} {b : Branch} {st why : DStat} {tail : Bits}
    {now : Word} {s : State} (h : panelGate code (byteBits code ++ tail) fs s = some why) :
    panelRun code fs b st tail now s = .next (reject .panel why s) := by
  simp only [panelRun, h]

theorem panelRun_of_accepted {code : Byte} {fs : List FieldSpec} {b : Branch} {st : DStat} {tail : Bits} {now : Word}
    {s t : State} (h : panelGate code (byteBits code ++ tail) fs s = none)
    (hb : b (byteBits code ++ tail) now (commit .panel (byteBits code ++ tail) now s) = .ok t) :
    panelRun code fs b st tail now s = .next { t with cmdOutP := code, dstatP := st } := by
  simp only [panelRun, h, hb]

/-- A null word is always rejected: as a duplicate, or as a null command (R162). -/
theorem panelGate_null (w : Bits) (fs : List FieldSpec) (s : State) :
    panelGate 0x00 w fs s = some (if w = s.prvP then .duplicate else .nullCommand) := by
  rw [panelGate, if_pos (rfl : (0x00 : Byte) = 0x00)]
  split_ifs <;> rfl

/-- The row a command byte selects runs PanelDecode with the fields, the branch and the status of that byte. -/
theorem panelRow_command (code : Byte) (tail : Bits) (now : Word) (a : Bool) (s : State) :
    panelRow (byteBits code ++ tail) now a s =
      panelRun code (panelFields s.cfg code) (panelBranch s.cfg code a) (panelStatus code) tail now s := by
  have hc : BitVec.ofNat 8 code.toNat = code := by simp
  simp only [panelRow, extract_command, drop_command, hc]
  refine panelCode_cases (P := fun code => panelCase code _ _ _ _ _ _ _ _ _ _ _ _ _ _ _ (execPRaw code tail now s) =
    panelRun code (panelFields s.cfg code) (panelBranch s.cfg code a) (panelStatus code) tail now s) code
    ?_ rfl rfl rfl rfl rfl rfl rfl rfl rfl rfl rfl rfl rfl rfl fun h => ?_
  · change execPNull tail s = _
    rw [execPNull, panelRun_of_rejected (panelGate_null _ _ _), panelRun_of_rejected (panelGate_null _ _ _)]
  · simp only [panelFields, panelBranch, panelStatus, panelCase_raw h]
    rfl

theorem exec_panelInstr (code : Byte) (tail : Bits) (now : Word) (a : Bool) (s : State) :
    exec (panelInstr code tail now a) s = panelRow (byteBits code ++ tail) now a s := by
  have hc : BitVec.ofNat 8 code.toNat = code := by simp
  simp only [panelRow, extract_command, drop_command, hc, panelInstr]
  exact panelCase_map (fun i => exec i s) code _ _ _ _ _ _ _ _ _ _ _ _ _ _ _ _

/-- A panel word that decodes is a command byte and a tail. -/
theorem decodePanel_eq_ok {w : Bits} {now : Word} {a : Bool} {i : Instr} (h : decodePanel w now a = .ok i) :
    ∃ code tail, w = byteBits code ++ tail ∧ i = panelInstr code tail now a := by
  unfold decodePanel at h
  split at h
  · cases h
  · rename_i v hv
    injection h with h
    obtain ⟨hr, rfl⟩ := extract_eq_ok hv
    exact ⟨_, _, word_split (by omega), h.symm⟩

theorem decodePanel_command (code : Byte) (tail : Bits) (now : Word) (a : Bool) :
    decodePanel (byteBits code ++ tail) now a = .ok (panelInstr code tail now a) := by
  simp [decodePanel]

/-- exec of the row a panel word decodes to is PanelDecode of the word. -/
theorem exec_of_decodePanel {w : Bits} {now : Word} {a : Bool} {i : Instr} (h : decodePanel w now a = .ok i) (s : State) :
    exec i s = panelRow w now a s := by
  obtain ⟨code, tail, rfl, rfl⟩ := decodePanel_eq_ok h
  exact exec_panelInstr code tail now a s

/-! ## The branches read in range -/

theorem readFlag_of_inRange {w : Bits} {off : Nat} (h : off + 1 ≤ w.length) : readFlag w off = .ok (w.getD off false) := by
  rw [readFlag, extract_of_inRange h, fieldAt_one h]
  cases w.getD off false <;> rfl

theorem statusBranch_ok {w : Bits} {now : Word} {s : State} (h : ∀ f ∈ statusFields s.cfg, f.1 + f.2 ≤ w.length) :
    statusBranch w now s = .ok { s with
      lastStatusTs := now
      statusSeen := true
      evP := .status (w.getD s.cfg.stOffReady false) (w.getD s.cfg.stOffError false) (w.getD s.cfg.stOffBypass false)
        (w.getD s.cfg.stOffMemory false) (w.getD s.cfg.stOffArmed false) (w.getD s.cfg.stOffProgram false)
        (w.getD s.cfg.stOffPowerFail false) } := by
  simp only [statusFields, List.forall_mem_cons, List.not_mem_nil, false_imp_iff, implies_true, and_true] at h
  obtain ⟨h1, h2, h3, h4, h5, h6, h7⟩ := h
  simp only [statusBranch, readFlag_of_inRange h1, readFlag_of_inRange h2, readFlag_of_inRange h3,
    readFlag_of_inRange h4, readFlag_of_inRange h5, readFlag_of_inRange h6, readFlag_of_inRange h7, bind, Except.bind]

theorem datetimeBranch_ok {a : Bool} {w : Bits} {now : Word} {s : State}
    (h : ∀ f ∈ datetimeFields s.cfg, f.1 + f.2 ≤ w.length) :
    datetimeBranch a w now s = .ok { s with
      evP := .datetime (yearOf (fieldAt w s.cfg.dtY1Off s.cfg.dtY1W) (fieldAt w s.cfg.dtY2Off s.cfg.dtY2W))
        (fieldAt w s.cfg.dtMonOff s.cfg.dtMonW) (fieldAt w s.cfg.dtDayOff s.cfg.dtDayW)
        (fieldAt w s.cfg.dtHourOff s.cfg.dtHourW) (fieldAt w s.cfg.dtMinOff s.cfg.dtMinW)
        (BitVec.ofNat 2 (fieldAt w s.cfg.dtArmOff 2)) (w.getD s.cfg.dtMasterOff false)
        (remapUser s.cfg (BitVec.ofNat 2 (fieldAt w s.cfg.dtArmOff 2)) (fieldAt w s.cfg.dtUserOff 6))
      tsValid := true
      tsYear := BitVec.ofNat 16 (yearOf (fieldAt w s.cfg.dtY1Off s.cfg.dtY1W) (fieldAt w s.cfg.dtY2Off s.cfg.dtY2W))
      tsMonth := BitVec.ofNat 16 (fieldAt w s.cfg.dtMonOff s.cfg.dtMonW)
      tsDay := BitVec.ofNat 16 (fieldAt w s.cfg.dtDayOff s.cfg.dtDayW)
      tsHour := BitVec.ofNat 16 (fieldAt w s.cfg.dtHourOff s.cfg.dtHourW)
      tsMinute := BitVec.ofNat 16 (fieldAt w s.cfg.dtMinOff s.cfg.dtMinW)
      tsOk := a } := by
  simp only [datetimeFields, dateFields, List.cons_append, List.nil_append, List.forall_mem_cons, List.not_mem_nil,
    false_imp_iff, implies_true, and_true] at h
  obtain ⟨h1, h2, h3, h4, h5, h6, h7, h8, h9⟩ := h
  simp only [datetimeBranch, extract_of_inRange h1, extract_of_inRange h2, extract_of_inRange h3, extract_of_inRange h4,
    extract_of_inRange h5, extract_of_inRange h6, extract_of_inRange h7, readFlag_of_inRange h8, extract_of_inRange h9,
    bind, Except.bind]

theorem zoneBranch_ok {g : ZoneGroup} {off : Nat} {w : Bits} {now : Word} {s : State}
    (h : ∀ f ∈ zoneFields off, f.1 + f.2 ≤ w.length) :
    zoneBranch g off w now s = .ok { s with evP := zoneEvent g (BitVec.ofNat 8 (fieldAt w off 8)) } := by
  have h' : off + 8 ≤ w.length := h (off, 8) (by simp [zoneFields])
  simp only [zoneBranch, extract_of_inRange h', bind, Except.bind]

/-! ## What a row does -/

/-- The registers a panel branch may write on the committed state, and when. -/
structure BranchWrites (code : Byte) (a : Bool) (s t : State) : Prop where
  frame : t = { s with
    evP := t.evP, lastStatusTs := t.lastStatusTs, statusSeen := t.statusSeen, tsValid := t.tsValid, tsYear := t.tsYear
    tsMonth := t.tsMonth, tsDay := t.tsDay, tsHour := t.tsHour, tsMinute := t.tsMinute, tsOk := t.tsOk }
  status : code ≠ 0x05 → t.lastStatusTs = s.lastStatusTs ∧ t.statusSeen = s.statusSeen
  seen : code = 0x05 → t.statusSeen = true
  timeSync : code ≠ 0xa5 → t.tsValid = s.tsValid ∧ t.tsYear = s.tsYear ∧ t.tsMonth = s.tsMonth ∧ t.tsDay = s.tsDay ∧
    t.tsHour = s.tsHour ∧ t.tsMinute = s.tsMinute ∧ t.tsOk = s.tsOk
  pulse : code = 0xa5 → t.tsValid = true ∧ t.tsOk = a ∧ ∃ y mo d h mi arm master user,
    t.evP = .datetime y mo d h mi arm master user ∧ t.tsYear = BitVec.ofNat 16 y ∧ t.tsMonth = BitVec.ofNat 16 mo ∧
    t.tsDay = BitVec.ofNat 16 d ∧ t.tsHour = BitVec.ofNat 16 h ∧ t.tsMinute = BitVec.ofNat 16 mi

/-- A branch that only names a message. -/
theorem branchWrites_message {code : Byte} {a : Bool} (ev : PanelEvent) (s : State) (h5 : code ≠ 0x05)
    (ha5 : code ≠ 0xa5) : BranchWrites code a s { s with evP := ev } :=
  ⟨rfl, fun _ => ⟨rfl, rfl⟩, fun h => absurd h h5, fun _ => ⟨rfl, rfl, rfl, rfl, rfl, rfl, rfl⟩, fun h => absurd h ha5⟩

/-- With its fields in range, the branch of every command byte answers, and writes only what `BranchWrites` says. -/
theorem panelBranch_ok {code : Byte} {a : Bool} {w : Bits} {now : Word} {s : State}
    (h : ∀ f ∈ panelFields s.cfg code, f.1 + f.2 ≤ w.length) :
    ∃ t, panelBranch s.cfg code a w now s = .ok t ∧ BranchWrites code a s t := by
  revert h
  refine panelCode_cases (P := fun code => (∀ f ∈ panelFields s.cfg code, f.1 + f.2 ≤ w.length) →
    ∃ t, panelBranch s.cfg code a w now s = .ok t ∧ BranchWrites code a s t) code
    (fun _ => ⟨_, rfl, branchWrites_message _ _ (by decide) (by decide)⟩)
    (fun h => ⟨_, statusBranch_ok h, rfl, fun h => absurd rfl h, fun _ => rfl,
      fun _ => ⟨rfl, rfl, rfl, rfl, rfl, rfl, rfl⟩, fun h => absurd h (by decide)⟩)
    (fun h => ⟨_, datetimeBranch_ok (now := now) h, rfl, fun _ => ⟨rfl, rfl⟩, fun h => absurd h (by decide), fun h => absurd rfl h,
      fun _ => ⟨rfl, rfl, _, _, _, _, _, _, _, _, rfl, rfl, rfl, rfl, rfl, rfl⟩⟩)
    (fun h => ⟨_, zoneBranch_ok (now := now) h, branchWrites_message _ _ (by decide) (by decide)⟩)
    (fun h => ⟨_, zoneBranch_ok (now := now) h, branchWrites_message _ _ (by decide) (by decide)⟩)
    (fun h => ⟨_, zoneBranch_ok (now := now) h, branchWrites_message _ _ (by decide) (by decide)⟩)
    (fun h => ⟨_, zoneBranch_ok (now := now) h, branchWrites_message _ _ (by decide) (by decide)⟩)
    ?_ ?_ ?_ ?_ ?_ ?_ ?_ ?_ fun hn _ => ?_
  case refine_9 =>
    refine ⟨{ s with evP := .raw code }, ?_, branchWrites_message _ _ ?_ ?_⟩
    · rw [panelBranch, panelCase_raw hn]
      rfl
    · rintro rfl
      exact hn (by decide)
    · rintro rfl
      exact hn (by decide)
  all_goals exact fun _ => ⟨_, rfl, branchWrites_message _ _ (by decide) (by decide)⟩

/-- The four statuses of a rejected panel word (R221). -/
def panelRejections : List DStat := [.duplicate, .nullCommand, .checksumMismatch, .indexOutOfRange]

theorem panelGate_some {code : Byte} {w : Bits} {fs : List FieldSpec} {s : State} {why : DStat}
    (h : panelGate code w fs s = some why) : why ∈ panelRejections := by
  unfold panelGate at h
  split_ifs at h <;> simp_all [panelRejections]

/-- A word passes the gate exactly when it is accepted by R161 to R164. -/
theorem panelGate_none {code : Byte} {w : Bits} {fs : List FieldSpec} {s : State} :
    panelGate code w fs s = none ↔
      w ≠ s.prvP ∧ code ≠ 0x00 ∧ (s.cfg.checksumStrict = true → validate s.cfg.ckDataOffset w = true) ∧
        ∀ f ∈ fs, f.1 + f.2 ≤ w.length := by
  rw [← fieldsInRange_eq_true]
  unfold panelGate
  split_ifs with h1 h2 h3 h4 <;> simp_all

/-- PanelDecode of a word: rejected with nothing committed, or committed with its branch done (R160). -/
theorem panelRow_cases (code : Byte) (tail : Bits) (now : Word) (a : Bool) (s : State) :
    (∃ why ∈ panelRejections, panelGate code (byteBits code ++ tail) (panelFields s.cfg code) s = some why ∧
      panelRow (byteBits code ++ tail) now a s = .next (reject .panel why s)) ∨
    (panelGate code (byteBits code ++ tail) (panelFields s.cfg code) s = none ∧ code ≠ 0x00 ∧
      ∃ t, BranchWrites code a (commit .panel (byteBits code ++ tail) now s) t ∧
        panelRow (byteBits code ++ tail) now a s = .next { t with cmdOutP := code, dstatP := panelStatus code }) := by
  rw [panelRow_command]
  cases hg : panelGate code (byteBits code ++ tail) (panelFields s.cfg code) s with
  | some why => exact .inl ⟨why, panelGate_some hg, rfl, panelRun_of_rejected hg⟩
  | none =>
    obtain ⟨-, hc, -, hf⟩ := panelGate_none.mp hg
    obtain ⟨t, ht, hw⟩ := panelBranch_ok (code := code) (a := a) (w := byteBits code ++ tail) (now := now)
      (s := commit .panel (byteBits code ++ tail) now s) (by rwa [commit_cfg])
    rw [commit_cfg] at ht
    exact .inr ⟨rfl, hc, t, hw, panelRun_of_accepted hg ht⟩

/-- An accepted word is reported as known or unknown. -/
theorem panelStatus_of_ne_zero {code : Byte} (h : code ≠ 0x00) : panelStatus code ∈ [DStat.ok, .unknownCommand] := by
  revert h
  refine panelCode_cases (P := fun code => code ≠ 0x00 → panelStatus code ∈ [DStat.ok, .unknownCommand]) code
    (fun h => absurd rfl h) ?_ ?_ ?_ ?_ ?_ ?_ ?_ ?_ ?_ ?_ ?_ ?_ ?_ ?_ fun hn _ => ?_
  case refine_15 => simp [panelStatus, panelCase_raw hn]
  all_goals exact fun _ => by decide

end Sys2Proof.Machine
end

