-- ==== Sys2Proof/Laws/Encoding.lean ====
section
/-! SUPPORT. The laws of the event word (spec/30_encoding.md R70, R71): its fields read back, and what each built word decodes to. -/
namespace Sys2Proof

open Machine

/-- The bits of an event word, from the lowest field up (R70). -/
theorem eventWord_getLsbD (kind : BitVec 2) (lvl d : Bool) (now : Word) (i : Nat) :
    (eventWord kind lvl d now).getLsbD i =
      if i < 32 then now.getLsbD i else if i < 33 then d else if i < 34 then lvl else kind.getLsbD (i - 34) := by
  have h1 := BitVec.getLsbD_append (x := kind ++ BitVec.ofBool lvl ++ BitVec.ofBool d) (y := now) (i := i)
  have h2 := BitVec.getLsbD_append (x := kind ++ BitVec.ofBool lvl) (y := BitVec.ofBool d) (i := i - 32)
  have h3 := BitVec.getLsbD_append (x := kind) (y := BitVec.ofBool lvl) (i := i - 32 - 1)
  refine h1.trans ?_
  rw [h2, h3]
  split_ifs <;> first | omega | rfl | simp [show i - 32 = 0 by omega] |
    simp [show i - 32 - 1 = 0 by omega]

theorem eventWord_kind (kind : BitVec 2) (lvl d : Bool) (now : Word) :
    (eventWord kind lvl d now).extractLsb' 34 2 = kind := by
  apply BitVec.eq_of_getLsbD_eq
  intro i hi
  rw [BitVec.getLsbD_extractLsb', eventWord_getLsbD]
  simp only [hi, decide_true, Bool.true_and, Nat.add_sub_cancel_left]
  rw [if_neg (by omega), if_neg (by omega), if_neg (by omega)]

theorem eventWord_lvl (kind : BitVec 2) (lvl d : Bool) (now : Word) : (eventWord kind lvl d now).getLsbD 33 = lvl := by
  rw [eventWord_getLsbD]; rfl

theorem eventWord_d (kind : BitVec 2) (lvl d : Bool) (now : Word) : (eventWord kind lvl d now).getLsbD 32 = d := by
  rw [eventWord_getLsbD]; rfl

theorem eventWord_now (kind : BitVec 2) (lvl d : Bool) (now : Word) :
    (eventWord kind lvl d now).extractLsb' 0 32 = now := by
  apply BitVec.eq_of_getLsbD_eq
  intro i hi
  rw [BitVec.getLsbD_extractLsb', eventWord_getLsbD]
  simp only [hi, decide_true, Bool.true_and, Nat.zero_add, ↓reduceIte]

/-- A word is built from its fields. -/
theorem eventWord_of_fields (e : EventWord) :
    eventWord (e.extractLsb' 34 2) (e.getLsbD 33) (e.getLsbD 32) (e.extractLsb' 0 32) = e := by
  apply BitVec.eq_of_getLsbD_eq
  intro i hi
  rw [eventWord_getLsbD, BitVec.getLsbD_extractLsb', BitVec.getLsbD_extractLsb']
  split_ifs with h1 h2 h3
  · simp [h1]
  · rw [show i = 32 by omega]
  · rw [show i = 33 by omega]
  · simp [show i - 34 < 2 by omega, show 34 + (i - 34) = i by omega]

theorem decodeEvent_eventWord (kind : BitVec 2) (lvl d : Bool) (now : Word) :
    decodeEvent (eventWord kind lvl d now) =
      if kind = 0b00 then (if lvl then .ok (.rise d now) else .ok (.fall d now))
      else if lvl then .error (.reservedBit (eventWord kind lvl d now))
      else if kind = 0b01 then .ok (.poll d now)
      else if kind = 0b10 then .ok (.arm d)
      else if d then .error (.reservedBit (eventWord kind lvl d now))
      else .ok .reset := by
  simp only [decodeEvent, eventWord_kind, eventWord_lvl, eventWord_d, eventWord_now]

@[simp] theorem decodeEvent_rise (d : Bool) (now : Word) : decodeEvent (eventWord 0b00 true d now) = .ok (.rise d now) := by
  rw [decodeEvent_eventWord]; rfl

@[simp] theorem decodeEvent_fall (d : Bool) (now : Word) : decodeEvent (eventWord 0b00 false d now) = .ok (.fall d now) := by
  rw [decodeEvent_eventWord]; rfl

@[simp] theorem decodeEvent_pollWord (a : Bool) (now : Word) : decodeEvent (pollWord a now) = .ok (.poll a now) := by
  rw [pollWord, decodeEvent_eventWord]; rfl

@[simp] theorem decodeEvent_arm (v : Bool) (now : Word) : decodeEvent (eventWord 0b10 false v now) = .ok (.arm v) := by
  rw [decodeEvent_eventWord]; rfl

@[simp] theorem decodeEvent_reset (now : Word) : decodeEvent (eventWord 0b11 false false now) = .ok .reset := by
  rw [decodeEvent_eventWord]; rfl

/-- Only the five transactions come from event words. -/
theorem decodeEvent_transaction {e : EventWord} {i : Instr} (h : decodeEvent e = .ok i) :
    (∃ d now, i = .rise d now) ∨ (∃ d now, i = .fall d now) ∨ (∃ a now, i = .poll a now) ∨ (∃ v, i = .arm v) ∨
      i = .reset := by
  simp only [decodeEvent] at h
  split_ifs at h <;> (injection h with h; subst h; simp)

/-- The panel row of a named or unnamed code, by its command byte. -/
theorem panelInstr_raw {code : Byte} (h : code ∉ namedPanelCodes) (tail : Bits) (now : Word) (a : Bool) :
    panelInstr code tail now a = .pRaw code tail now := panelCase_raw h _ _ _ _ _ _ _ _ _ _ _ _ _ _ _ _

end Sys2Proof
end

