-- ==== Sys2Proof/Laws/Framer.lean ====
section
/-! SUPPORT. What POLL can do, once (spec/42_framer.md R140): the guard fails, or both rows run and the result is reported. -/
namespace Sys2Proof.Machine

@[simp] theorem andThen_next (s : State) (f : State → Result) : andThen (.next s) f = f s := rfl

@[simp] theorem framerGuard_eq_true {s : State} : framerGuard s = true ↔
    s.cfg.tBoundary + s.cfg.mFramer < s.edgeInterval.toNat ∧ 8 ≤ s.bldP.length := by
  rw [framerGuard, Bool.and_eq_true, decide_eq_true_iff, decide_eq_true_iff]
  rfl

theorem execPoll_of_guard_fails {a : Bool} {now : Word} {s : State} (h : ¬ framerGuard s = true) :
    execPoll a now s = .next { beginPoll now s with result := 0 } := by
  simp only [execPoll, h]
  rfl

theorem execPoll_of_guard_passes {a : Bool} {now : Word} {s : State} (h : framerGuard s = true) :
    execPoll a now s = framePass a now (beginPoll now s) := by
  simp only [execPoll, h, ↓reduceIte]

/-- What one panel row leaves (a short form of `panelRow_cases` that names the registers). -/
structure PanelRowEffect (code : Byte) (w : Bits) (now : Word) (a : Bool) (s t : State) : Prop where
  frame : t = { s with
    lastDataTs := t.lastDataTs, prvP := t.prvP, evP := t.evP, cmdOutP := t.cmdOutP, dstatP := t.dstatP
    lastStatusTs := t.lastStatusTs, statusSeen := t.statusSeen, tsValid := t.tsValid, tsYear := t.tsYear
    tsMonth := t.tsMonth, tsDay := t.tsDay, tsHour := t.tsHour, tsMinute := t.tsMinute, tsOk := t.tsOk }
  verdict : (t.dstatP ∈ panelRejections ∧ t = { s with cmdOutP := 0, dstatP := t.dstatP }) ∨
    (t.dstatP ∈ [DStat.ok, .unknownCommand] ∧ code ≠ 0x00 ∧ t.dstatP = panelStatus code ∧ t.cmdOutP = code ∧
      t.prvP = w ∧ t.lastDataTs = now ∧ (code = 0x05 → t.statusSeen = true) ∧
      (code = 0xa5 → t.tsValid = true ∧ t.tsOk = a ∧ ∃ y mo d h mi arm master user,
        t.evP = .datetime y mo d h mi arm master user ∧ t.tsYear = BitVec.ofNat 16 y ∧
        t.tsMonth = BitVec.ofNat 16 mo ∧ t.tsDay = BitVec.ofNat 16 d ∧ t.tsHour = BitVec.ofNat 16 h ∧
        t.tsMinute = BitVec.ofNat 16 mi))
  status : t.cmdOutP ≠ 0x05 → t.lastStatusTs = s.lastStatusTs ∧ t.statusSeen = s.statusSeen
  timeSync : t.cmdOutP ≠ 0xa5 → t.tsValid = s.tsValid ∧ t.tsYear = s.tsYear ∧ t.tsMonth = s.tsMonth ∧
    t.tsDay = s.tsDay ∧ t.tsHour = s.tsHour ∧ t.tsMinute = s.tsMinute ∧ t.tsOk = s.tsOk

/-- A panel row always ends in a next state, with the effect of R160. -/
theorem panelRow_effect (code : Byte) (tail : Bits) (now : Word) (a : Bool) (s : State) :
    ∃ t, panelRow (byteBits code ++ tail) now a s = .next t ∧
      PanelRowEffect code (byteBits code ++ tail) now a s t := by
  rcases panelRow_cases code tail now a s with ⟨why, hw, -, he⟩ | ⟨-, hc, t, ht, he⟩
  · exact ⟨_, he, rfl, .inl ⟨hw, rfl⟩, fun _ => ⟨rfl, rfl⟩, fun _ => ⟨rfl, rfl, rfl, rfl, rfl, rfl, rfl⟩⟩
  · refine ⟨_, he, ?_, .inr ⟨panelStatus_of_ne_zero hc, hc, rfl, rfl, ?_, ?_, ht.seen, ht.pulse⟩, ht.status, ht.timeSync⟩
    · conv_lhs => rw [ht.frame]
      rw [ht.frame]
      rfl
    · rw [ht.frame]
      rfl
    · rw [ht.frame]
      rfl

/-- The panel row of a word of at least eight bits, which a guard pass promotes. -/
theorem panelRow_effect_of_long {w : Bits} (h : 8 ≤ w.length) (now : Word) (a : Bool) (s : State) :
    ∃ code t, w = byteBits code ++ w.drop 8 ∧ panelRow w now a s = .next t ∧ PanelRowEffect code w now a s t := by
  have hw := word_split h
  obtain ⟨t, h1, h2⟩ := panelRow_effect (BitVec.ofNat 8 (fieldAt w 0 8)) (w.drop 8) now a s
  rw [← hw] at h1 h2
  exact ⟨_, t, hw, h1, h2⟩

/-- What one keypad row leaves. -/
structure KeypadRowEffect (w : Bits) (now : Word) (s t : State) : Prop where
  frame : t = { s with
    lastDataTs := t.lastDataTs, prvK := t.prvK, evK := t.evK, cmdOutK := t.cmdOutK, dstatK := t.dstatK }
  verdict : (t.dstatK ∈ [DStat.noise, .indexOutOfRange] ∧ t = { s with cmdOutK := 0, dstatK := t.dstatK }) ∨
    (t.dstatK ∈ [DStat.ok, .nullCommand] ∧ false ∈ w ∧ t.prvK = w ∧ t.lastDataTs = now ∧ t.evK ≠ .none)

/-- A keypad row always ends in a next state, with the effect of R200. -/
theorem keypadRow_effect (w : Bits) (now : Word) (s : State) :
    ∃ t, keypadRow w now s = .next t ∧ KeypadRowEffect w now s t := by
  rw [keypadRow_eq]
  rcases keypadRun_cases w now s with ⟨why, hw, he⟩ | ⟨hz, -, -, code, kb2, he⟩
  · exact ⟨_, he, rfl, .inl ⟨hw, rfl⟩⟩
  · refine ⟨_, he, rfl, .inr ⟨?_, hz, rfl, rfl, by simp [keypadAccept]⟩⟩
    simp only [keypadAccept]
    split <;> simp

/-- A POLL that passes its guard ends in a next state: the two rows' effects, one after the other, and the result. -/
theorem framePass_effect {a : Bool} {now : Word} {s : State} (h : 8 ≤ s.bldP.length) :
    ∃ code t u, s.bldP = byteBits code ++ s.bldP.drop 8 ∧
      PanelRowEffect code s.bldP now a (clearEvents (promote .panel s)) t ∧ KeypadRowEffect s.cmpK now t u ∧
      framePass a now s = .next (endPoll u) := by
  obtain ⟨code, t, hw, hp, ht⟩ := panelRow_effect_of_long h now a (clearEvents (promote .panel s))
  obtain ⟨u, hk, hu⟩ := keypadRow_effect t.cmpK now t
  have hcmp : t.cmpK = s.cmpK := by rw [ht.frame]; rfl
  rw [hcmp] at hk hu
  refine ⟨code, t, u, hw, ht, hu, ?_⟩
  simp only [framePass, clearEvents_cmpP, promote_panel_cmpP, hp, andThen_next, hcmp, hk]

/-- What POLL can do (R140, R147). -/
theorem execPoll_cases (a : Bool) (now : Word) (s : State) :
    (¬ framerGuard s = true ∧ execPoll a now s = .next { beginPoll now s with result := 0 }) ∨
    (framerGuard s = true ∧ ∃ code t u, s.bldP = byteBits code ++ s.bldP.drop 8 ∧
      PanelRowEffect code s.bldP now a (clearEvents (promote .panel (beginPoll now s))) t ∧
      KeypadRowEffect s.cmpK now t u ∧ execPoll a now s = .next (endPoll u)) := by
  by_cases h : framerGuard s = true
  · refine .inr ⟨h, ?_⟩
    rw [execPoll_of_guard_passes h]
    exact framePass_effect (s := beginPoll now s) (framerGuard_eq_true.mp h).2
  · exact .inl ⟨h, execPoll_of_guard_fails h⟩

end Sys2Proof.Machine
end

