-- ==== Sys2Proof/Laws/PerInstr.lean ====
section
/-! SUPPORT. Per-instruction families. `EncodingFits`: the encoding of a well-formed instruction is one the hardware can hold: a framed word of at most `maxBits` bits, a panel word of at least `minPanelBits` (spec/30_encoding.md R73, R74). -/
namespace Sys2Proof

open Machine

/-- The encoding is one that a bit sequence of the hardware can hold. -/
def Encoded.Fits : Encoded → Prop
  | .event _ => True
  | .panel _ w => minPanelBits ≤ w.length ∧ w.length ≤ maxBits
  | .keypad _ w => w.length ≤ maxBits

end Sys2Proof

namespace Sys2Proof.Laws.EncodingFits

open Sys2Proof.Machine

/-- The family's statement. -/
def Statement (i : Instr) : Prop := ∀ c : Config, i.wf c = true → (encode c i).Fits

/-- A command byte and a tail that fits make a word that fits. -/
theorem command_fits {code : Byte} {tail : Bits} (h : tailFits tail = true) :
    minPanelBits ≤ (byteBits code ++ tail).length ∧ (byteBits code ++ tail).length ≤ maxBits := by
  have h' : 8 + tail.length ≤ maxBits := by simpa [tailFits] using h
  rw [List.length_append, byteBits_length]
  exact ⟨Nat.le_add_right 8 _, h'⟩

theorem rise (d : Bool) (now : Word) : Statement (.rise d now) := fun _ _ => trivial
theorem fall (d : Bool) (now : Word) : Statement (.fall d now) := fun _ _ => trivial
theorem poll (a : Bool) (now : Word) : Statement (.poll a now) := fun _ _ => trivial
theorem arm (v : Bool) : Statement (.arm v) := fun _ _ => trivial
theorem reset : Statement .reset := fun _ _ => trivial
theorem pNull (tail : Bits) : Statement (.pNull tail) := fun _ h => command_fits h
theorem pStatus (tail : Bits) (now : Word) : Statement (.pStatus tail now) := fun _ h => command_fits h
theorem pDatetime (tail : Bits) (now : Word) (a : Bool) : Statement (.pDatetime tail now a) := fun _ h => command_fits h
theorem pZoneA (tail : Bits) (now : Word) : Statement (.pZoneA tail now) := fun _ h => command_fits h
theorem pZoneB (tail : Bits) (now : Word) : Statement (.pZoneB tail now) := fun _ h => command_fits h
theorem pZoneC (tail : Bits) (now : Word) : Statement (.pZoneC tail now) := fun _ h => command_fits h
theorem pZoneD (tail : Bits) (now : Word) : Statement (.pZoneD tail now) := fun _ h => command_fits h
theorem pLabel11 (tail : Bits) (now : Word) : Statement (.pLabel11 tail now) := fun _ h => command_fits h
theorem pLabel0A (tail : Bits) (now : Word) : Statement (.pLabel0A tail now) := fun _ h => command_fits h
theorem pLabel5D (tail : Bits) (now : Word) : Statement (.pLabel5D tail now) := fun _ h => command_fits h
theorem pLabel63 (tail : Bits) (now : Word) : Statement (.pLabel63 tail now) := fun _ h => command_fits h
theorem pLabel64 (tail : Bits) (now : Word) : Statement (.pLabel64 tail now) := fun _ h => command_fits h
theorem pLabel69 (tail : Bits) (now : Word) : Statement (.pLabel69 tail now) := fun _ h => command_fits h
theorem pLabel39 (tail : Bits) (now : Word) : Statement (.pLabel39 tail now) := fun _ h => command_fits h
theorem pLabelB1 (tail : Bits) (now : Word) : Statement (.pLabelB1 tail now) := fun _ h => command_fits h

theorem pRaw (code : Byte) (tail : Bits) (now : Word) : Statement (.pRaw code tail now) := fun _ h =>
  command_fits (Bool.and_eq_true_iff.mp h).1

theorem kNoise (n : Nat) : Statement (.kNoise n) := fun _ h => by
  simpa [encode, keypadWord, Encoded.Fits, Instr.wf] using h

theorem kButton (tail : Bits) (now : Word) : Statement (.kButton tail now) := fun _ h =>
  (command_fits (Bool.and_eq_true_iff.mp h).1).2

theorem kFire (tail : Bits) (now : Word) : Statement (.kFire tail now) := fun _ h =>
  (command_fits (Bool.and_eq_true_iff.mp h).1).2

theorem kAux (tail : Bits) (now : Word) : Statement (.kAux tail now) := fun _ h =>
  (command_fits (Bool.and_eq_true_iff.mp h).1).2

theorem kPanic (tail : Bits) (now : Word) : Statement (.kPanic tail now) := fun _ h =>
  (command_fits (Bool.and_eq_true_iff.mp h).1).2

theorem kOther (w : Bits) (now : Word) : Statement (.kOther w now) := fun _ h => by
  have hl : w.length ≤ maxBits := of_decide_eq_true (Bool.and_eq_true_iff.mp (Bool.and_eq_true_iff.mp h).1).1
  exact hl

end Sys2Proof.Laws.EncodingFits
end

