-- ==== Sys2Proof/Tests/Slice0.lean ====
section
/-! SUPPORT. The model's own tests: the checks of WellFormed with an ill-formed term each, words written out bit by bit from the encodings of spec/30_encoding.md, the vectors of spec/95_test_vectors.md one step each, and for every obligation with hypotheses a state and operands that meet them. -/
namespace Sys2Proof.Tests

/-! The tests are elaborated one after another: elaborated at once, each waits in a thread of its own for the kernel. -/
set_option Elab.async false

open Sys2Proof.Machine

/-- A word written as its binary digits, position 0 first. -/
def w (ds : List Nat) : Bits := ds.map (· == 1)

/-- `n` zeros. -/
def zeros (n : Nat) : Bits := List.replicate n false

/-- `n` ones. -/
def ones (n : Nat) : Bits := List.replicate n true

/-- The state of the vectors' word "fresh": after RESET and ARM 1, under TC. -/
def fresh : State := { State.reset with captureArmed := true }

/-- A fresh state in which a POLL passes its guard with the panel word `p` and the keypad word `k`. -/
def framed (p k : Bits) : State := { fresh with edgeInterval := 3201, bldP := p, cmpK := k }

/-- TC with the strict checksum gate. -/
def strict : Config := { Config.testConfig with checksumStrict := true }

/-- The answer is a next state that meets `p`. -/
def nextMeets (r : Result) (p : State → Bool) : Bool :=
  match r with
  | .next s => p s
  | .fault _ => false
  | .refused _ => false

/-- A step of the state runs event `e` and leaves a state that meets `p`. -/
def stepMeets (s : State) (e : EventWord) (p : State → Bool) : Bool := nextMeets (step { s with pending := [e] }) p

/-! ## WellFormed: what its checks refuse (spec/00_scope.md R8; spec/30_encoding.md R73, R74, R77, R79) -/

theorem test_wf_testConfig : Config.testConfig.wf = true := by decide +kernel
theorem test_wf_margin_above_boundary : { Config.testConfig with mCapture := 3001 }.wf = false := by decide +kernel
theorem test_wf_margin_at_boundary : { Config.testConfig with mCapture := 3000 }.wf = true := by decide +kernel
theorem test_wf_framer_sum_too_large : { Config.testConfig with mFramer := 2 ^ 32 - 3000 }.wf = false := by decide +kernel
theorem test_wf_framer_sum_largest : { Config.testConfig with mFramer := 2 ^ 32 - 3001 }.wf = true := by decide +kernel
theorem test_wf_status_field_beyond_word : { Config.testConfig with stOffPowerFail := 200 }.wf = false := by decide +kernel
theorem test_wf_status_field_last : { Config.testConfig with stOffPowerFail := 199 }.wf = true := by decide +kernel
theorem test_wf_user_field_beyond_word : { Config.testConfig with dtUserOff := 195 }.wf = false := by decide +kernel
theorem test_wf_zone_field_beyond_word : { Config.testConfig with zoneOff3E := 193 }.wf = false := by decide +kernel
theorem test_wf_keypad_field_beyond_word : { Config.testConfig with kpByte2Off := 193 }.wf = false := by decide +kernel
theorem test_wf_width_zero : { Config.testConfig with dtMonW := 0 }.wf = false := by decide +kernel
theorem test_wf_width_seventeen : { Config.testConfig with dtMonW := 17 }.wf = false := by decide +kernel

theorem test_wf_panel_tail_too_long : (Instr.pStatus (zeros 193) 0).wf Config.testConfig = false := by decide +kernel
theorem test_wf_raw_named_code : (Instr.pRaw 0x05 [] 0).wf Config.testConfig = false := by decide +kernel
theorem test_wf_raw_tail_too_long : (Instr.pRaw 0x99 (zeros 193) 0).wf Config.testConfig = false := by decide +kernel
theorem test_wf_noise_too_long : (Instr.kNoise 201).wf Config.testConfig = false := by decide +kernel
theorem test_wf_button_all_ones : (Instr.kButton (ones 8) 0).wf Config.testConfig = false := by decide +kernel
theorem test_wf_button_tail_too_long : (Instr.kButton (zeros 193) 0).wf Config.testConfig = false := by decide +kernel
theorem test_wf_fire_is_button :
    (Instr.kFire [] 0).wf { Config.testConfig with kpCodeFire := 0xff } = false := by decide +kernel
theorem test_wf_aux_is_fire :
    (Instr.kAux [] 0).wf { Config.testConfig with kpCodeAux := 0xbb } = false := by decide +kernel
theorem test_wf_panic_is_aux :
    (Instr.kPanic [] 0).wf { Config.testConfig with kpCodePanic := 0xdd } = false := by decide +kernel
theorem test_wf_other_is_noise : (Instr.kOther (ones 9) 0).wf Config.testConfig = false := by decide +kernel
theorem test_wf_other_is_fire :
    (Instr.kOther (w [1, 0, 1, 1, 1, 0, 1, 1]) 0).wf Config.testConfig = false := by decide +kernel
theorem test_wf_other_too_long : (Instr.kOther (zeros 201) 0).wf Config.testConfig = false := by decide +kernel
theorem test_wf_other_short_word : (Instr.kOther [false] 0).wf Config.testConfig = true := by decide +kernel

/-! ## Decoding: words written out from the encodings (R70, R71, R73, R74, R77, R79) -/

/-- The event words of spec/95_test_vectors.md section 2.1, each bit field spelled out: kind, level, data, time. -/
theorem test_decode_rise : decodeEvent (0b00#2 ++ 0b1#1 ++ 0b1#1 ++ 0x12345678#32 : BitVec 36) = .ok (.rise true 0x12345678) := by
  decide +kernel
theorem test_decode_fall : decodeEvent (0b00#2 ++ 0b0#1 ++ 0b1#1 ++ 16000#32 : BitVec 36) = .ok (.fall true 16000) := by
  decide +kernel
theorem test_decode_poll : decodeEvent (0b01#2 ++ 0b0#1 ++ 0b1#1 ++ 80100#32 : BitVec 36) = .ok (.poll true 80100) := by
  decide +kernel
theorem test_decode_arm : decodeEvent (0b10#2 ++ 0b0#1 ++ 0b1#1 ++ 77#32 : BitVec 36) = .ok (.arm true) := by decide +kernel
theorem test_decode_reset : decodeEvent (0b11#2 ++ 0b0#1 ++ 0b0#1 ++ 77#32 : BitVec 36) = .ok .reset := by decide +kernel
theorem test_decode_reserved :
    decodeEvent 0x600000005 = .error (.reservedBit 0x600000005) ∧
    decodeEvent 0xA00000000 = .error (.reservedBit 0xA00000000) ∧
    decodeEvent 0xE00000000 = .error (.reservedBit 0xE00000000) ∧
    decodeEvent 0xD00000000 = .error (.reservedBit 0xD00000000) := by decide +kernel

theorem test_decode_pNull : decodePanel (w [0, 0, 0, 0, 0, 0, 0, 0, 1]) 7 false = .ok (.pNull [true]) := by decide +kernel
theorem test_decode_pStatus : decodePanel (w [0, 0, 0, 0, 0, 1, 0, 1, 0]) 7 false = .ok (.pStatus [false] 7) := by
  decide +kernel
theorem test_decode_pDatetime : decodePanel (w [1, 0, 1, 0, 0, 1, 0, 1, 1]) 7 true = .ok (.pDatetime [true] 7 true) := by
  decide +kernel
theorem test_decode_pZoneA : decodePanel (w [0, 0, 1, 0, 0, 1, 1, 1]) 7 false = .ok (.pZoneA [] 7) := by decide +kernel
theorem test_decode_pZoneB : decodePanel (w [0, 0, 1, 0, 1, 1, 0, 1]) 7 false = .ok (.pZoneB [] 7) := by decide +kernel
theorem test_decode_pZoneC : decodePanel (w [0, 0, 1, 1, 0, 1, 0, 0]) 7 false = .ok (.pZoneC [] 7) := by decide +kernel
theorem test_decode_pZoneD : decodePanel (w [0, 0, 1, 1, 1, 1, 1, 0]) 7 false = .ok (.pZoneD [] 7) := by decide +kernel
theorem test_decode_pLabel11 : decodePanel (w [0, 0, 0, 1, 0, 0, 0, 1]) 7 false = .ok (.pLabel11 [] 7) := by decide +kernel
theorem test_decode_pLabel0A : decodePanel (w [0, 0, 0, 0, 1, 0, 1, 0]) 7 false = .ok (.pLabel0A [] 7) := by decide +kernel
theorem test_decode_pLabel5D : decodePanel (w [0, 1, 0, 1, 1, 1, 0, 1]) 7 false = .ok (.pLabel5D [] 7) := by decide +kernel
theorem test_decode_pLabel63 : decodePanel (w [0, 1, 1, 0, 0, 0, 1, 1]) 7 false = .ok (.pLabel63 [] 7) := by decide +kernel
theorem test_decode_pLabel64 : decodePanel (w [0, 1, 1, 0, 0, 1, 0, 0]) 7 false = .ok (.pLabel64 [] 7) := by decide +kernel
theorem test_decode_pLabel69 : decodePanel (w [0, 1, 1, 0, 1, 0, 0, 1]) 7 false = .ok (.pLabel69 [] 7) := by decide +kernel
theorem test_decode_pLabel39 : decodePanel (w [0, 0, 1, 1, 1, 0, 0, 1]) 7 false = .ok (.pLabel39 [] 7) := by decide +kernel
theorem test_decode_pLabelB1 : decodePanel (w [1, 0, 1, 1, 0, 0, 0, 1]) 7 false = .ok (.pLabelB1 [] 7) := by decide +kernel
theorem test_decode_pRaw : decodePanel (w [1, 0, 0, 1, 1, 0, 0, 1]) 7 false = .ok (.pRaw 0x99 [] 7) := by decide +kernel
theorem test_decode_panel_too_short : decodePanel (w [0, 0, 0, 1, 0, 0, 0]) 7 false = .error ⟨0, 8, 7⟩ := by decide +kernel
theorem test_decode_kNoise : decodeKeypad Config.testConfig (ones 16) 7 = .kNoise 16 := by decide +kernel
theorem test_decode_kButton :
    decodeKeypad Config.testConfig (w [1, 1, 1, 1, 1, 1, 1, 1, 1, 0]) 7 = .kButton [true, false] 7 := by decide +kernel
theorem test_decode_kFire : decodeKeypad Config.testConfig (w [1, 0, 1, 1, 1, 0, 1, 1]) 7 = .kFire [] 7 := by decide +kernel
theorem test_decode_kAux : decodeKeypad Config.testConfig (w [1, 1, 0, 1, 1, 1, 0, 1]) 7 = .kAux [] 7 := by decide +kernel
theorem test_decode_kPanic : decodeKeypad Config.testConfig (w [1, 1, 1, 0, 1, 1, 1, 0]) 7 = .kPanic [] 7 := by decide +kernel
theorem test_decode_kOther :
    decodeKeypad Config.testConfig (w [0, 0, 0, 1, 0, 0, 1, 0]) 7 = .kOther (w [0, 0, 0, 1, 0, 0, 1, 0]) 7 := by decide +kernel
theorem test_decode_kOther_short : decodeKeypad Config.testConfig [false] 7 = .kOther [false] 7 := by decide +kernel
theorem test_decode_too_long :
    decode Config.testConfig (.panel (pollWord false 0) (zeros 201)) = .error (.tooLong 201) ∧
    decode Config.testConfig (.panel 0x900000000 (zeros 8)) = .error (.notAPoll 0x900000000) := by decide +kernel

/-- Program 3 of the vectors, steps 3.0 and 3.1, and a BITS line whose strings differ in length. -/
theorem test_trace_bits :
    (TraceLine.bits [true, false] [true, true] 10000 500).expand =
      some [0x100002710, 0x300002904, 0x100002AF8, 0x200002CEC] ∧
    (TraceLine.bits [true] [] 0 500).expand = none := by decide +kernel

/-- Trace lines of section 2.1 and of Program 5. -/
theorem test_trace_lines :
    (TraceLine.rise true 0x12345678).expand = some [0x312345678] ∧ (TraceLine.fall false 19000).expand = some [0x000004A38] ∧
    (TraceLine.poll 54600).expand = some [0x40000D548] ∧ (TraceLine.pollAck 80100).expand = some [0x5000138E4] ∧
    (TraceLine.arm true).expand = some [0x900000000] ∧ TraceLine.reset.expand = some [0xC00000000] := by decide +kernel

/-- The two functions the host reads: rows of spec/opcode_table.json. -/
theorem test_decodeTableWord :
    decodeTableWord 40 0x312345678 = some (.rise true 0x12345678) ∧ decodeTableWord 40 0x600000005 = none ∧
    decodeTableWord 8 0x05 = some (.pStatus (zeros 192) 0) ∧ decodeTableWord 16 0x80ff = some (.kButton (true :: zeros 191) 0) ∧
    decodeTableWord 8 0x99 = some (.pRaw 0x99 (zeros 192) 0) := by decide +kernel

theorem test_withFetchWord_event :
    nextMeets (step (State.reset.withFetchWord 40 0x900000000)) (fun t => t.captureArmed && t.pending == []) = true := by
  decide +kernel
theorem test_withFetchWord_panel :
    nextMeets (step (State.reset.withFetchWord 8 0x11))
      (fun t => t.evP == .label 0x11 && t.cmdOutP == 0x11 && t.pending == []) = true := by decide +kernel
theorem test_withFetchWord_keypad :
    nextMeets (step (State.reset.withFetchWord 16 0x82ff))
      (fun t => t.evK == .ke (.known .digit1) [] && t.cmdOutK == 0xff && t.pending == []) = true := by decide +kernel

/-! ## Pure functions (spec/95_test_vectors.md W1, W6, 2.2, 2.3, the remap table) -/

theorem test_extract :
    extract (w [0, 0, 0, 0, 0, 1, 0, 1]) 0 8 = .ok 5 ∧ extract (w [0, 1, 1, 0]) 1 2 = .ok 3 ∧
    extract (ones 16) 0 16 = .ok 65535 ∧ extract (w [1, 0, 1]) 3 0 = .ok 0 ∧
    extract (w [1, 0, 1]) 3 1 = .error ⟨3, 1, 3⟩ ∧ extract (w [1, 0, 1]) 2 2 = .error ⟨2, 2, 3⟩ ∧
    inRange (w [0, 0, 0, 0, 0, 1, 0, 1]) 1 8 = false := by decide +kernel

theorem test_validate :
    validate 8 [] = false ∧ validate 8 (byteBits 5 ++ w [1]) = false ∧ validate 8 (byteBits 5 ++ w [0, 0, 0, 0, 1, 0, 1]) = false ∧
    validate 8 (byteBits 5 ++ byteBits 5) = true ∧ validate 8 (byteBits 5 ++ byteBits 3 ++ byteBits 8) = true ∧
    validate 8 (byteBits 5 ++ byteBits 3 ++ byteBits 9) = false ∧ validate 8 (byteBits 255 ++ byteBits 2 ++ byteBits 1) = true ∧
    validate 8 (byteBits 5 ++ byteBits 3 ++ byteBits 8 ++ w [1, 0, 1]) = true ∧
    validate 8 (byteBits 1 ++ byteBits 2 ++ byteBits 3 ++ byteBits 7) = false := by decide +kernel

theorem test_remapUser :
    [(0, 0), (0, 31), (0, 33), (0, 34), (0, 63), (1, 5), (2, 4), (2, 10), (2, 44), (2, 63)].map
      (fun p : BitVec 2 × Nat => remapUser Config.testConfig p.1 p.2) = [1, 32, 34, 40, 69, 6, -5, 1, 40, 59] := by decide +kernel

/-! ## Transactions, one step each (sections 2.4, 2.5, 2.8) -/

/-- CP3: the gap ends on a RISE. -/
theorem test_rise_after_gap :
    stepMeets { fresh with lastEdgeTs := 1000, bldK := w [0, 1, 0, 1], bldP := w [1, 1, 1] } 0x200000ED9
      (fun t => t.cmpK == w [0, 1, 0, 1] && t.bldK == [] && t.bldP == w [1, 1, 1, 0] && t.edgeInterval == 2801) = true := by
  decide +kernel

/-- CP9: a bit beyond the capacity. -/
theorem test_rise_drops_bit :
    stepMeets { fresh with lastEdgeTs := 100, bldP := zeros 200 } 0x300000258
      (fun t => t.bldP == zeros 200 && t.dropP && !t.dropK) = true := by decide +kernel

/-- CP1: an interval of exactly the threshold is no gap. -/
theorem test_fall_at_threshold :
    stepMeets { fresh with lastEdgeTs := 1000, bldK := w [0, 1, 0, 1] } 0x100000ED8
      (fun t => t.bldK == w [0, 1, 0, 1, 1] && t.cmpK == [] && t.edgeInterval == 2800) = true := by decide +kernel

/-- CP5: the interval across the wrap of the time. -/
theorem test_fall_wraps :
    stepMeets { fresh with lastEdgeTs := 0xFFFFF000, bldK := w [0, 1] } 0x100001000
      (fun t => t.edgeInterval == 8192 && t.cmpK == w [0, 1] && t.bldK == w [1]) = true := by decide +kernel

/-- FR2. -/
theorem test_poll_passes :
    stepMeets (framed (w [0, 0, 0, 1, 0, 0, 0, 1] ++ zeros 16) (zeros 16)) 0x400004E20
      (fun t => t.cmpP.length == 24 && t.bldP == [] && t.evP == .label 0x11 && t.dstatP == .ok && t.dstatK == .nullCommand &&
        t.cmdOutK == 0 && t.result == 1 && t.prvK == zeros 16) = true := by decide +kernel

/-- FR1 and FR6: the guard fails at its boundary, and the indicator ends one microsecond after its window. -/
theorem test_poll_waits :
    stepMeets { framed (zeros 24) [] with edgeInterval := 3200, statusSeen := true, lastStatusTs := 1000 } 0x40007A509
      (fun t => t.result == 0 && t.bldP == zeros 24 && t.dstatP == .none && !t.statusLed) = true := by decide +kernel

/-- CP11. -/
theorem test_arm : stepMeets State.reset 0x900000000 (fun t => flagsView t == 0x40) = true := by decide +kernel

/-- X1. -/
theorem test_reset :
    stepMeets { framed (zeros 8) (ones 3) with statusLed := true, statusSeen := true, result := 3, prvP := ones 9 } 0xC00000000
      (fun t => t == State.reset) = true := by decide +kernel

/-! ## Panel rows (section 2.6) -/

/-- PD6. -/
theorem test_pNull :
    nextMeets (exec (.pNull [true]) fresh) (fun t => t.cmdOutP == 0 && t.dstatP == .nullCommand && t.prvP == []) = true := by
  decide +kernel

/-- PD1. -/
theorem test_pStatus :
    nextMeets (exec (.pStatus (w [0, 1] ++ zeros 14) 777) fresh)
      (fun t => t.evP == .status true false false false false false false && t.cmdOutP == 5 && t.dstatP == .ok &&
        t.lastStatusTs == 777 && t.statusSeen && t.lastDataTs == 777) = true := by decide +kernel

/-- PD3: the last field is one bit beyond the word. -/
theorem test_pStatus_short :
    nextMeets (exec (.pStatus (zeros 12) 777) fresh)
      (fun t => t.dstatP == .indexOutOfRange && t.cmdOutP == 0 && !t.statusSeen && t.prvP == []) = true := by decide +kernel

/-- T2. -/
theorem test_pDatetime :
    nextMeets (exec (.pDatetime (byteBits 20 ++ byteBits 26 ++ w [1, 0, 1, 1] ++ w [0, 1, 0, 1, 1] ++ w [0, 1, 0, 0, 1] ++
        w [0, 1, 1, 1, 1, 0] ++ w [1, 0] ++ w [1] ++ w [0, 0, 0, 1, 0, 0]) 777 true) fresh)
      (fun t => t.evP == .datetime 2026 11 11 9 30 2 true (-5) && t.tsValid && t.tsYear == 2026 && t.tsMinute == 30 && t.tsOk) =
      true := by decide +kernel

/-- T7. -/
theorem test_pDatetime_short :
    nextMeets (exec (.pDatetime (zeros 44) 777 true) fresh) (fun t => t.dstatP == .indexOutOfRange && !t.tsValid && !t.tsOk) =
      true := by decide +kernel

/-- PD12. -/
theorem test_pZoneA :
    nextMeets (exec (.pZoneA (w [0, 0, 0, 0, 0, 0, 1, 0, 1]) 777) fresh)
      (fun t => t.evP == .zones .a 5 [1, 3] false && t.cmdOutP == 0x27) = true := by decide +kernel

/-- W4: an empty bitmap is ready. -/
theorem test_pZoneA_ready :
    nextMeets (exec (.pZoneA (zeros 9) 777) fresh) (fun t => t.evP == .zones .a 0 [] true) = true := by decide +kernel

/-- PD14. -/
theorem test_pZoneB :
    nextMeets (exec (.pZoneB (w [0, 0, 0, 0, 0, 0, 1, 0, 1]) 777) fresh)
      (fun t => t.evP == .zones .b 5 [9, 11] false && t.cmdOutP == 0x2d) = true := by decide +kernel

/-- PD15. -/
theorem test_pZoneC :
    nextMeets (exec (.pZoneC (w [0, 1, 0, 0, 0, 0, 0, 0, 1]) 777) fresh)
      (fun t => t.evP == .zones .c 0x81 [17, 24] false && t.cmdOutP == 0x34) = true := by decide +kernel

/-- PD16. -/
theorem test_pZoneD :
    nextMeets (exec (.pZoneD (w [0, 0, 1, 0, 0, 0, 0, 0, 0]) 777) fresh)
      (fun t => t.evP == .zones .d 0x40 [31] false && t.cmdOutP == 0x3e) = true := by decide +kernel

/-- PD10 and PD11. -/
theorem test_pLabels :
    nextMeets (exec (.pLabel11 [] 777) fresh) (fun t => t.evP == .label 0x11 && t.cmdOutP == 0x11 && t.dstatP == .ok) = true ∧
    nextMeets (exec (.pLabel0A [] 777) fresh) (fun t => t.evP == .label 0x0a && t.cmdOutP == 0x0a && t.dstatP == .ok) = true ∧
    nextMeets (exec (.pLabel5D [] 777) fresh) (fun t => t.evP == .label 0x5d && t.cmdOutP == 0x5d && t.dstatP == .ok) = true ∧
    nextMeets (exec (.pLabel63 [] 777) fresh) (fun t => t.evP == .label 0x63 && t.cmdOutP == 0x63 && t.dstatP == .ok) = true ∧
    nextMeets (exec (.pLabel64 [] 777) fresh) (fun t => t.evP == .label 0x64 && t.cmdOutP == 0x64 && t.dstatP == .ok) = true ∧
    nextMeets (exec (.pLabel69 [] 777) fresh) (fun t => t.evP == .label 0x69 && t.cmdOutP == 0x69 && t.dstatP == .ok) = true ∧
    nextMeets (exec (.pLabel39 [] 777) fresh) (fun t => t.evP == .label 0x39 && t.cmdOutP == 0x39 && t.dstatP == .ok) = true ∧
    nextMeets (exec (.pLabelB1 [] 777) fresh) (fun t => t.evP == .label 0xb1 && t.cmdOutP == 0xb1 && t.dstatP == .ok) = true := by
  decide +kernel

/-- PD20: an 8-bit word never validates. -/
theorem test_pLabel11_strict :
    nextMeets (exec (.pLabel11 [] 777) { fresh with cfg := strict }) (fun t => t.dstatP == .checksumMismatch && t.prvP == []) =
      true := by decide +kernel

/-- PD9. -/
theorem test_pRaw :
    nextMeets (exec (.pRaw 0x99 [] 777) fresh)
      (fun t => t.evP == .raw 0x99 && t.cmdOutP == 0x99 && t.dstatP == .unknownCommand && t.prvP == w [1, 0, 0, 1, 1, 0, 0, 1]) =
      true := by decide +kernel

/-- PD8. -/
theorem test_pRaw_duplicate :
    nextMeets (exec (.pRaw 0x99 [] 777) { fresh with prvP := w [1, 0, 0, 1, 1, 0, 0, 1] })
      (fun t => t.evP == .none && t.cmdOutP == 0 && t.dstatP == .duplicate && t.lastDataTs == 0) = true := by decide +kernel

/-! ## Keypad rows (section 2.7) -/

/-- KD1 and KD3. -/
theorem test_kNoise :
    nextMeets (exec (.kNoise 0) fresh) (fun t => t.dstatK == .noise && t.cmdOutK == 0 && t.prvK == []) = true ∧
    nextMeets (exec (.kNoise 200) fresh) (fun t => t.dstatK == .noise && t.evK == .none) = true := by decide +kernel

/-- KD8. -/
theorem test_kButton :
    nextMeets (exec (.kButton (w [1, 0, 0, 0, 0, 0, 1, 0]) 555) fresh)
      (fun t => t.evK == .ke (.known .digit1) [] && t.cmdOutK == 0xff && t.dstatK == .ok && t.lastDataTs == 555 &&
        t.prvK == ones 8 ++ w [1, 0, 0, 0, 0, 0, 1, 0]) = true := by decide +kernel

/-- KD10: an unknown byte. -/
theorem test_kButton_unknown :
    nextMeets (exec (.kButton (w [0, 0, 0, 0, 0, 0, 0, 1, 1, 1, 1]) 555) fresh) (fun t => t.evK == .ke (.unknown 1) []) = true := by
  decide +kernel

/-- KD12. -/
theorem test_kFire :
    nextMeets (exec (.kFire (zeros 8) 555) fresh) (fun t => t.evK == .ke .none [.fire] && t.cmdOutK == 0xbb) = true := by
  decide +kernel

/-- The variant of KD12: FIRE at the button code. -/
theorem test_kFire_at_button_code :
    nextMeets (exec (.kButton (w [1, 0, 0, 0, 0, 0, 1, 0]) 555)
        { fresh with cfg := { Config.testConfig with kpCodeFire := 0xff } })
      (fun t => t.evK == .ke (.known .digit1) [.fire]) = true := by decide +kernel

/-- KD13. -/
theorem test_kAux :
    nextMeets (exec (.kAux (zeros 8) 555) fresh) (fun t => t.evK == .ke .none [.aux] && t.cmdOutK == 0xdd) = true := by
  decide +kernel

/-- KD14. -/
theorem test_kPanic :
    nextMeets (exec (.kPanic (zeros 8) 555) fresh) (fun t => t.evK == .ke .none [.panic] && t.cmdOutK == 0xee) = true := by
  decide +kernel

/-- KD15, and KD16: code 0 is committed. -/
theorem test_kOther :
    nextMeets (exec (.kOther (w [0, 0, 0, 1, 0, 0, 1, 0] ++ zeros 8) 555) fresh)
      (fun t => t.evK == .ke .none [] && t.cmdOutK == 0x12 && t.dstatK == .ok) = true ∧
    nextMeets (exec (.kOther (zeros 16) 555) fresh)
      (fun t => t.evK == .ke .none [] && t.cmdOutK == 0 && t.dstatK == .nullCommand && t.prvK == zeros 16) = true := by
  decide +kernel

/-- KD5: too short for its second byte. -/
theorem test_kOther_short :
    nextMeets (exec (.kOther (false :: ones 11) 555) fresh) (fun t => t.dstatK == .indexOutOfRange && t.evK == .none) = true := by
  decide +kernel

/-! ## The views and the ports (spec/10_state.md R37, R38, R40) -/

theorem test_views :
    let s := { State.reset with statusLed := true, dropK := true, cmdOutK := 0xff, cmdOutP := 0x27, dstatK := .noise, dstatP := .ok }
    flagsView s = 0x09 ∧ cmdView s = 0xff27 ∧ dstatView s = 0x51 ∧ (outputs s).dstatK = 5 ∧ (outputs s).flags = 0x09 := by
  decide +kernel

theorem test_wordPort : wordPort (w [1, 0, 1, 1]) = ⟨4, 0b1101⟩ := by decide +kernel

/-! ## Witnesses: for every obligation with hypotheses, a state and operands that meet them, at the edges of their ranges -/

/-- A state with one event requested. -/
def asked (e : EventWord) : State := { fresh with pending := [e] }

/-- The shortest panel word, just above the framer threshold: the edge of both conditions of the guard. -/
def passing : State := framed (zeros 8) []

theorem witness_passing : PollPasses passing := by
  unfold PollPasses
  decide +kernel

/-- EventWordsDecodeByKind: each clause. -/
theorem witness_EventWordsDecodeByKind :
    let fields := fun e : EventWord => (e.extractLsb' 34 2, e.getLsbD 33, e.getLsbD 32)
    fields 0x200000000 = (0, true, false) ∧ fields 0x0FFFFFFFF = (0, false, false) ∧ fields 0x500000000 = (1, false, true) ∧
    fields 0x900000000 = (2, false, true) ∧ fields 0xCFFFFFFFF = (3, false, false) ∧ fields 0x600000000 = (1, true, false) ∧
    fields 0xD00000000 = (3, false, true) ∧ (asked 0x600000000).cfg.wf = true ∧
    (asked 0xD00000000).pending = 0xD00000000 :: [] := by decide +kernel

/-- DecodeOfEncodeIsTheInstruction: an instruction of every row, with operands at the ends of their ranges. -/
theorem witness_DecodeOfEncodeIsTheInstruction :
    [.rise true 0xFFFFFFFF, .fall false 0, .poll true 0xFFFFFFFF, .arm true, .reset, .pNull (ones 192), .pStatus [] 0,
      .pDatetime (zeros 192) 0xFFFFFFFF true, .pZoneA (ones 192) 1, .pZoneB [] 1, .pZoneC [] 1, .pZoneD [] 1,
      .pLabel11 (ones 192) 1, .pLabel0A [] 1, .pLabel5D [] 1, .pLabel63 [] 1, .pLabel64 [] 1, .pLabel69 [] 1, .pLabel39 [] 1,
      .pLabelB1 [] 1, .pRaw 0xff (ones 192) 1, .pRaw 0x01 [] 0, .kNoise 0, .kNoise 200, .kButton (zeros 192) 1, .kFire [] 1,
      .kAux (ones 192) 1, .kPanic [] 1, .kOther (zeros 200) 1, .kOther [false] 0].all (Instr.wf Config.testConfig) = true := by
  decide +kernel

/-- EncodeOfDecodeIsTheEncoding: each clause; ARM with ignored bits set, panel words of each mask (200 bits, 8 bits) and
keypad words of each mask (200 bits, 1 bit). -/
theorem witness_EncodeOfDecodeIsTheEncoding :
    decode Config.testConfig (.event 0x912345678) = .ok (.arm true) ∧
    decode Config.testConfig (.panel 0x500000009 (zeros 200)) = .ok (.pNull (zeros 192)) ∧
    decode Config.testConfig (.panel 0x500000009 (byteBits 0xa5)) = .ok (.pDatetime [] 9 true) ∧
    decode Config.testConfig (.panel 0x500000009 (byteBits 0x11)) = .ok (.pLabel11 [] 9) ∧
    decode Config.testConfig (.keypad 0x500000009 (ones 200)) = .ok (.kNoise 200) ∧
    decode Config.testConfig (.keypad 0x500000009 [false]) = .ok (.kOther [false] 9) := by decide +kernel

/-- StepRunsTheRequestedEvent. -/
theorem witness_StepRunsTheRequestedEvent :
    (asked 0x912345678).cfg.wf = true ∧ (asked 0x912345678).pending = 0x912345678 :: [] ∧
    decodeEvent 0x912345678 = .ok (.arm true) := by decide +kernel

/-- BrokenConfigurationsAreRefused: configurations on both sides. -/
theorem witness_BrokenConfigurationsAreRefused :
    step { fresh with cfg := { Config.testConfig with kpByte2Off := 193 } } = .refused .badConfiguration ∧
    200 < ({ Config.testConfig with kpByte2Off := 193 } : Config).kpByte2Off + 8 ∧
    step fresh = .next fresh := ⟨rfl, by decide, rfl⟩

/-- StepRunsTheRequestedEvent, its second clause. -/
theorem witness_idle_step : fresh.cfg.wf = true ∧ fresh.pending = [] := by decide +kernel

/-- DisarmedEdgesChangeNothing. -/
theorem witness_DisarmedEdgesChangeNothing : State.reset.captureArmed = false := rfl

/-- RiseCapturesAPanelBit, FallCapturesAKeypadBit, EdgeIntervalsWrapAround: armed, with and without a gap, with the
last free place and with none. -/
theorem witness_armed_edges :
    fresh.captureArmed = true ∧ GapAt 2801 fresh ∧ ¬ GapAt 2800 fresh ∧ GapAt 0xFFFFFFFF fresh ∧
    (zeros 199).length < 200 ∧ ¬ (zeros 200).length < 200 := by decide +kernel

/-- EdgesReadAndWriteOnlyTheirRegisters: both forms, on two states that differ elsewhere. -/
theorem witness_EdgesReadAndWriteOnlyTheirRegisters :
    let s' := { fresh with result := 3, prvP := zeros 8 }
    transactionOf (.rise true 5) = some .edge ∧ transactionOf (.fall true 5) = some .edge ∧
    exec (.rise true 5) fresh = .next (edge .panel true 5 fresh) ∧ exec (.rise true 5) s' = .next (edge .panel true 5 s') ∧
    fresh.cfg = s'.cfg ∧ fresh.captureArmed = s'.captureArmed ∧ fresh.bldP = s'.bldP ∧ fresh.bldK = s'.bldK ∧
    fresh.cmpK = s'.cmpK := ⟨rfl, rfl, rfl, rfl, rfl, rfl, rfl, rfl, rfl⟩

/-- AppendsKeepEarlierBits: each clause at its boundary. -/
theorem witness_AppendsKeepEarlierBits :
    ({ fresh with bldP := zeros 199 } : State).bldP.length < 200 ∧ 200 ≤ ({ fresh with bldP := zeros 200 } : State).bldP.length := by
  decide +kernel

/-- GuardFailureWritesOnlyThreeRegisters: each condition of the guard, failing at its boundary. -/
theorem witness_GuardFailureWritesOnlyThreeRegisters :
    ¬ PollPasses { passing with edgeInterval := 3200 } ∧ ¬ PollPasses { passing with bldP := zeros 7 } := by
  unfold PollPasses
  decide +kernel

/-- PollRunsTheDecodedWords, GuardPassPromotesAndReports and SecondPollFindsNothing; PollFrame and
TimeSyncPulseLastsOnePoll: a POLL of the passing state answers. -/
theorem witness_polls :
    PollPasses passing ∧ ∃ t, exec (.poll true 9) passing = .next t ∧ t.dstatP = .nullCommand ∧ t.dstatK = .noise :=
  ⟨witness_passing, _, rfl, by decide +kernel, by decide +kernel⟩

/-- TimeSyncPulseLastsOnePoll: a POLL after which the pulse is 1; after a POLL that waits it is 0. -/
theorem witness_TimeSyncPulseLastsOnePoll :
    nextMeets (exec (.poll true 9) (framed (byteBits 0xa5 ++ zeros 45) [])) (fun t => t.tsValid && t.cmdOutP == 0xa5) = true ∧
    nextMeets (exec (.poll true 9) fresh) (fun t => !t.tsValid) = true := by decide +kernel

/-- DecoderOrderAffectsNothing, PanelReturnValueTellsAcceptance, PanelRowFrame: a panel word that decodes, and answers. -/
theorem witness_decoded_panel_word :
    decodePanel (w [0, 0, 0, 1, 0, 0, 0, 1]) 7 false = .ok (.pLabel11 [] 7) ∧
    (∃ t, exec (.pLabel11 [] 7) fresh = .next t ∧ t.cmdOutP ≠ 0x05 ∧ t.cmdOutP ≠ 0xa5) := by
  refine ⟨by decide +kernel, _, rfl, ?_, ?_⟩ <;> decide +kernel

/-- DuplicatePanelWordsAreRejected. -/
theorem witness_DuplicatePanelWordsAreRejected :
    decodePanel ({ fresh with prvP := byteBits 0x99 } : State).prvP 7 false = .ok (.pRaw 0x99 [] 7) := by decide +kernel

/-- NullCommandsAreRejected: both clauses. -/
theorem witness_NullCommandsAreRejected :
    byteBits 0x00 ++ [true] ≠ fresh.prvP ∧ byteBits 0x00 ++ [] = ({ fresh with prvP := zeros 8 } : State).prvP := by decide +kernel

/-- ChecksumGatesInStrictModeOnly: both clauses, the first with PD18's word. -/
theorem witness_ChecksumGatesInStrictModeOnly :
    let word := byteBits 5 ++ (byteBits 3 ++ byteBits 9)
    decodePanel word 7 false = .ok (.pStatus (byteBits 3 ++ byteBits 9) 7) ∧
    ({ fresh with cfg := strict } : State).cfg.checksumStrict = true ∧ word ≠ ({ fresh with cfg := strict } : State).prvP ∧
    true ∈ word.take 8 ∧ validate ({ fresh with cfg := strict } : State).cfg.ckDataOffset word = false ∧
    fresh.cfg.checksumStrict = false := by decide +kernel

/-- ShortPanelWordsAreRejected: each row, one bit short. -/
theorem witness_ShortPanelWordsAreRejected :
    let c := fresh.cfg
    fresh.cfg.checksumStrict = false ∧
    (byteBits 0x05 ++ zeros 12 ≠ fresh.prvP ∧ 8 + (zeros 12).length < c.stOffPowerFail + 1) ∧
    (byteBits 0xa5 ++ zeros 44 ≠ fresh.prvP ∧ 8 + (zeros 44).length < c.dtUserOff + 6) ∧
    (byteBits 0x27 ++ zeros 8 ≠ fresh.prvP ∧ 8 + (zeros 8).length < c.zoneOff27 + 8) ∧
    (byteBits 0x2d ++ zeros 8 ≠ fresh.prvP ∧ 8 + (zeros 8).length < c.zoneOff2D + 8) ∧
    (byteBits 0x34 ++ zeros 8 ≠ fresh.prvP ∧ 8 + (zeros 8).length < c.zoneOff34 + 8) ∧
    (byteBits 0x3e ++ zeros 8 ≠ fresh.prvP ∧ 8 + (zeros 8).length < c.zoneOff3E + 8) := by decide +kernel

/-- StatusWordsAreDecoded: the shortest status word, and a longest one that passes the strict gate. -/
theorem witness_StatusWordsAreDecoded :
    let fields := fun c : Config => [(c.stOffReady, 1), (c.stOffError, 1), (c.stOffBypass, 1), (c.stOffMemory, 1),
      (c.stOffArmed, 1), (c.stOffProgram, 1), (c.stOffPowerFail, 1)]
    PanelAccepts (byteBits 0x05 ++ zeros 13) (fields fresh.cfg) fresh ∧
    PanelAccepts (byteBits 0x05 ++ (zeros 184 ++ byteBits 5)) (fields strict) { fresh with cfg := strict } := by
  unfold PanelAccepts
  decide +kernel

/-- DatetimeWordsAreDecoded: the shortest date/time word. -/
theorem witness_DatetimeWordsAreDecoded :
    let c := fresh.cfg
    let word := byteBits 0xa5 ++ ones 45
    PanelAccepts word [(c.dtMasterOff, 1)] fresh ∧
    extract word c.dtY1Off c.dtY1W = .ok 255 ∧ extract word c.dtY2Off c.dtY2W = .ok 255 ∧
    extract word c.dtMonOff c.dtMonW = .ok 15 ∧ extract word c.dtDayOff c.dtDayW = .ok 31 ∧
    extract word c.dtHourOff c.dtHourW = .ok 31 ∧ extract word c.dtMinOff c.dtMinW = .ok 63 ∧
    extract word c.dtArmOff 2 = .ok 3 ∧ extract word c.dtUserOff 6 = .ok 63 := by
  unfold PanelAccepts
  decide +kernel

/-- ZoneWordsAreDecoded: the shortest word of each group, and bitmaps at both ends. -/
theorem witness_ZoneWordsAreDecoded :
    let c := fresh.cfg
    (PanelAccepts (byteBits 0x27 ++ zeros 9) [] fresh ∧ extract (byteBits 0x27 ++ zeros 9) c.zoneOff27 8 = .ok 0) ∧
    (PanelAccepts (byteBits 0x2d ++ ones 9) [] fresh ∧ extract (byteBits 0x2d ++ ones 9) c.zoneOff2D 8 = .ok 255) ∧
    (PanelAccepts (byteBits 0x34 ++ ones 9) [] fresh ∧ extract (byteBits 0x34 ++ ones 9) c.zoneOff34 8 = .ok 255) ∧
    (PanelAccepts (byteBits 0x3e ++ zeros 9) [] fresh ∧ extract (byteBits 0x3e ++ zeros 9) c.zoneOff3E 8 = .ok 0) := by
  unfold PanelAccepts
  decide +kernel

/-- LabelWordsAreDecoded: each code, the word being the command byte alone. -/
theorem witness_LabelWordsAreDecoded :
    ∀ code ∈ [0x11, 0x0a, 0x5d, 0x63, 0x64, 0x69, 0x39, 0xb1], PanelAccepts (byteBits code ++ []) [] fresh := by
  unfold PanelAccepts
  decide +kernel

/-- RawWordsAreDecoded: the smallest and the largest code the map does not name. -/
theorem witness_RawWordsAreDecoded :
    ∀ code ∈ [(0x01 : Byte), 0xff],
      code ∉ [0x00, 0x05, 0xa5, 0x27, 0x2d, 0x34, 0x3e, 0x11, 0x0a, 0x5d, 0x63, 0x64, 0x69, 0x39, 0xb1] ∧
      PanelAccepts (byteBits code ++ []) [] fresh := by
  unfold PanelAccepts
  decide +kernel

/-- KeypadCodesSelectTheirRows: each condition under TC, and a word of seven bits. -/
theorem witness_KeypadCodesSelectTheirRows :
    let c := Config.testConfig
    false ∈ byteBits 0xff ++ [false] ∧ c.kpCodeFire ≠ 0xff ∧ c.kpCodeAux ∉ [0xff, c.kpCodeFire] ∧
    c.kpCodePanic ∉ [0xff, c.kpCodeFire, c.kpCodeAux] ∧ (0x00 : Byte) ∉ [0xff, c.kpCodeFire, c.kpCodeAux, c.kpCodePanic] ∧
    (∀ code ∈ [c.kpCodeFire, c.kpCodeAux, c.kpCodePanic, 0x00], false ∈ byteBits code ++ []) ∧
    false ∈ zeros 7 ∧ (zeros 7).length < 8 := by decide +kernel

/-- PanelCodesSelectTheirRows, its clause about duplicates. -/
theorem witness_PanelCodesSelectTheirRows_duplicate :
    decodePanel (byteBits 0x05 ++ [true]) 7 false = .ok (.pStatus [true] 7) ∧
    byteBits 0x05 ++ [true] = ({ fresh with prvP := byteBits 0x05 ++ [true] } : State).prvP := by decide +kernel

/-- PanelCodesSelectTheirRows, its default row: the smallest and the largest code outside the map. -/
theorem witness_PanelCodesSelectTheirRows :
    ∀ code ∈ [(0x01 : Byte), 0xff],
      code ∉ [0x00, 0x05, 0xa5, 0x27, 0x2d, 0x34, 0x3e, 0x11, 0x0a, 0x5d, 0x63, 0x64, 0x69, 0x39, 0xb1] := by decide +kernel

/-- NoiseWordsAreRejected: the empty word and the longest. -/
theorem witness_NoiseWordsAreRejected : false ∉ ([] : Bits) ∧ false ∉ ones 200 := by decide +kernel

/-- ShortKeypadWordsAreRejected: KD4, and one bit short. -/
theorem witness_ShortKeypadWordsAreRejected :
    (false ∈ [false] ∧ [false].length < max 8 (fresh.cfg.kpByte2Off + 8)) ∧
    (false ∈ zeros 15 ∧ (zeros 15).length < max 8 (fresh.cfg.kpByte2Off + 8)) := by decide +kernel

/-- ButtonWordsAreDecoded: the shortest word, and one longer than its fields. -/
theorem witness_ButtonWordsAreDecoded :
    (KeypadAccepts (byteBits 0xff ++ byteBits 0x82) fresh ∧
      extract (byteBits 0xff ++ byteBits 0x82) fresh.cfg.kpByte2Off 8 = .ok 0x82) ∧
    (KeypadAccepts (byteBits 0xff ++ (ones 8 ++ [false])) fresh ∧
      extract (byteBits 0xff ++ (ones 8 ++ [false])) fresh.cfg.kpByte2Off 8 = .ok 0xff) := by
  unfold KeypadAccepts
  decide +kernel

/-- AlarmWordsAreDecoded: each of the three codes under TC. -/
theorem witness_AlarmWordsAreDecoded :
    ∀ code ∈ [fresh.cfg.kpCodeFire, fresh.cfg.kpCodeAux, fresh.cfg.kpCodePanic],
      KeypadAccepts (byteBits code ++ zeros 8) fresh ∧ extract (byteBits code ++ zeros 8) fresh.cfg.kpByte2Off 8 = .ok 0 := by
  unfold KeypadAccepts
  decide +kernel

/-- OtherKeypadWordsAreDecoded: the smallest code and one beside it. -/
theorem witness_OtherKeypadWordsAreDecoded :
    ∀ v ∈ [0, 1, 254], KeypadAccepts (byteBits (BitVec.ofNat 8 v) ++ zeros 8) fresh ∧
      extract (byteBits (BitVec.ofNat 8 v) ++ zeros 8) 0 8 = .ok v ∧
      BitVec.ofNat 8 v ∉ [0xff, fresh.cfg.kpCodeFire, fresh.cfg.kpCodeAux, fresh.cfg.kpCodePanic] := by
  unfold KeypadAccepts
  decide +kernel

/-- AlarmWordsAreDecoded where codes coincide: two equal codes; a code 0x00; a code 0xff with a 0 bit after it. -/
theorem witness_AlarmWordsAreDecoded_equal_codes :
    let s := { fresh with cfg := { Config.testConfig with kpCodeAux := 0xbb, kpCodePanic := 0x00 } }
    let s' := { fresh with cfg := { Config.testConfig with kpCodeFire := 0xff } }
    s.cfg.kpCodeAux = s.cfg.kpCodeFire ∧
    (KeypadAccepts (byteBits s.cfg.kpCodeFire ++ zeros 8) s ∧
      extract (byteBits s.cfg.kpCodeFire ++ zeros 8) s.cfg.kpByte2Off 8 = .ok 0) ∧
    (KeypadAccepts (byteBits s.cfg.kpCodePanic ++ ones 8) s ∧
      extract (byteBits s.cfg.kpCodePanic ++ ones 8) s.cfg.kpByte2Off 8 = .ok 255) ∧
    (KeypadAccepts (byteBits s'.cfg.kpCodeFire ++ byteBits 0x82) s' ∧
      extract (byteBits s'.cfg.kpCodeFire ++ byteBits 0x82) s'.cfg.kpByte2Off 8 = .ok 0x82) := by
  unfold KeypadAccepts
  decide +kernel

/-- RepeatedKeypadWordsAreReportedAgain and KeypadRowFrame: a keypad word answers, accepted; another rejected. -/
theorem witness_decoded_keypad_word :
    (∃ t, exec (decodeKeypad fresh.cfg (zeros 16) 7) fresh = .next t ∧ t.dstatK = .nullCommand) ∧
    (∃ t, exec (decodeKeypad fresh.cfg (ones 3) 7) fresh = .next t ∧ t.dstatK = .noise) :=
  ⟨⟨_, rfl, by decide +kernel⟩, ⟨_, rfl, by decide +kernel⟩⟩

/-- ExtractReadsMostSignificantBitFirst, ChecksumComparesTheByteSum, ZoneListIsTheBitmap, WordPortsShowTheWord: the edges. -/
theorem witness_pure_functions :
    3 + 0 ≤ (zeros 3).length ∧ (zeros 3).length < 3 + 1 ∧ (zeros 7).length < 8 ∧ (zeros 15).length < 16 ∧
    extract (zeros 8) 0 8 = .ok 0 ∧ (zeros 200).length ≤ 200 := by decide +kernel

/-- UserCodesAreRemapped: each clause at both ends of its range. -/
theorem witness_UserCodesAreRemapped :
    let c := Config.testConfig
    (0 : BitVec 2) ≠ c.armStateArmed ∧ (2 : BitVec 2) = c.armStateArmed ∧ 33 < 64 ∧ 34 < 64 ∧ 63 < 64 ∧
    43 ≤ 33 + c.armUserOffset ∧ 34 + c.armUserOffset ≤ 44 ∧ 34 + c.armUserOffset ≤ 63 := by decide +kernel

/-- EveryStepKeepsTheInvariants, StatusCodesStayWithTheirRole, ParametersAndDataOutNeverChange, DiagnosticsInfluenceNothing:
a state with full sequences and a POLL requested meets the invariants and steps. -/
theorem witness_invariant_step :
    let s := { framed (zeros 200) (ones 200) with bldK := zeros 200, pending := [pollWord false 9] }
    s.Inv ∧ s.StatusesLegal ∧ s.dataOut = .released ∧ nextMeets (step s) (fun t => t.cmpP == zeros 200) = true := by
  refine ⟨⟨?_, ?_, ?_, ?_, ?_, ?_, ?_, ?_, ?_⟩, ⟨?_, ?_⟩, rfl, ?_⟩ <;> decide +kernel

/-- DiagnosticsInfluenceNothing, its second clause: a step that is refused. -/
theorem witness_refused_step : step (asked 0xD00000000) = .refused (.illFormedEvent 0xD00000000) := rfl

/-- RegistersAreWrittenByTheirOwners: each transaction answers. -/
theorem witness_RegistersAreWrittenByTheirOwners :
    (transactionOf (.rise true 9) = some .edge ∧ ∃ t, exec (.rise true 9) fresh = .next t ∧ t.bldP ≠ fresh.bldP) ∧
    (transactionOf (.poll true 9) = some .poll ∧ ∃ t, exec (.poll true 9) passing = .next t ∧ t.cmpP ≠ passing.cmpP) ∧
    (transactionOf (.arm false) = some .arm ∧ ∃ t, exec (.arm false) fresh = .next t ∧ t.captureArmed ≠ fresh.captureArmed) ∧
    (transactionOf .reset = some .reset ∧ ∃ t, exec .reset passing = .next t ∧ t.bldP ≠ passing.bldP) := by
  refine ⟨⟨rfl, _, rfl, ?_⟩, ⟨rfl, _, rfl, ?_⟩, ⟨rfl, _, rfl, ?_⟩, ⟨rfl, _, rfl, ?_⟩⟩ <;> decide +kernel

/-- StatusSeenIsClearedByResetOnly: RESET clears it, P_STATUS sets it. -/
theorem witness_StatusSeenIsClearedByResetOnly :
    nextMeets (exec .reset { fresh with statusSeen := true }) (fun t => !t.statusSeen) = true ∧
    nextMeets (exec (.pStatus (zeros 13) 9) fresh) (fun t => t.statusSeen) = true := by decide +kernel

/-- BitsFrameNothingInside: a single pair at the largest spacing, with the first FALL after a gap and not, into empty
sequences and into full ones. -/
theorem witness_BitsFrameNothingInside :
    let s := fun t0 n => { fresh with
      bldP := zeros n, bldK := zeros n, pending := bitsEvents 2799 t0 ([true].zip [false]) ++ [] }
    (∀ n ∈ [0, 200], (s 2801 n).cfg.wf = true ∧ (s 2801 n).captureArmed = true ∧ (s 2801 n).bldP.length ≤ 200 ∧
      (s 2801 n).bldK.length ≤ 200 ∧ 2799 < (s 2801 n).cfg.tBoundary - (s 2801 n).cfg.mCapture) ∧
    [true].length = [false].length ∧ 0 < [true].length ∧ GapAt (BitVec.ofNat 32 2801) (s 2801 0) ∧
    ¬ GapAt (BitVec.ofNat 32 2800) (s 2800 200) := by decide +kernel

/-- WordsAreFramedExactly: the shortest and the longest word into an empty sequence, and one bit after seven (R255). -/
theorem witness_WordsAreFramedExactly :
    ∀ nm ∈ [(8, 0), (200, 0), (1, 7), (1, 200)],
      let n := nm.1
      let t1 := BitVec.ofNat 32 (5000 + (2 * n - 1) * 500 + 3201)
      let s := { fresh with bldP := zeros nm.2, pending := bitsEvents 500 5000 ((ones n).zip (zeros n)) ++
        [eventWord 0b00 false true t1, pollWord true 0] ++ [] }
      s.cfg.wf = true ∧ s.captureArmed = true ∧ s.bldP.length ≤ 200 ∧ s.bldK.length ≤ 200 ∧
      (ones n).length = (zeros n).length ∧ 0 < (ones n).length ∧ 8 ≤ s.bldP.length + (ones n).length ∧
      500 < s.cfg.tBoundary - s.cfg.mCapture ∧
      s.cfg.tBoundary + s.cfg.mFramer < (t1 - BitVec.ofNat 32 (5000 + (2 * (ones n).length - 1) * 500)).toNat := by
  decide +kernel

end Sys2Proof.Tests
end

/-! # A configuration that breaks R8 is the one reason for `badConfiguration` -/

section

namespace Sys2Proof

open Machine

/-- The constraints of R8 as propositions, over the model's own lists of fields. -/
theorem Config.wf_eq_true {c : Config} : c.wf = true ↔
    c.mCapture ≤ c.tBoundary ∧ c.tBoundary + c.mFramer < 2 ^ 32 ∧
      (∀ f ∈ configFields c, f.1 + f.2 ≤ 200) ∧ ∀ f ∈ dateFields c, 1 ≤ f.2 ∧ f.2 ≤ 16 := by
  simp only [Config.wf, Bool.and_eq_true, List.all_eq_true, decide_eq_true_eq, and_assoc]
  rfl

/-- The same from the other side: a configuration is not well-formed when one constraint is broken. -/
theorem Config.not_wf {c : Config} : ¬ c.wf = true ↔
    c.tBoundary < c.mCapture ∨ 2 ^ 32 ≤ c.tBoundary + c.mFramer ∨
      (∃ f ∈ configFields c, 200 < f.1 + f.2) ∨ ∃ f ∈ dateFields c, f.2 < 1 ∨ 16 < f.2 := by
  rw [Config.wf_eq_true]
  simp only [not_and_or, not_forall, not_le, not_lt, exists_prop]

end Sys2Proof

namespace Sys2Proof.Machine

/-- A transaction that an event word names ends in a next state. -/
theorem exec_decodeEvent_next {e : EventWord} {i : Instr} (h : decodeEvent e = .ok i) (s : State) :
    ∃ t, exec i s = .next t := by
  rcases decodeEvent_transaction h with ⟨d, now, rfl⟩ | ⟨d, now, rfl⟩ | ⟨a, now, rfl⟩ | ⟨v, rfl⟩ | rfl
  · exact ⟨_, rfl⟩
  · exact ⟨_, rfl⟩
  · rcases execPoll_cases a now s with ⟨-, ht⟩ | ⟨-, -, -, u, -, -, -, ht⟩
    · exact ⟨_, ht⟩
    · exact ⟨_, ht⟩
  · exact ⟨_, rfl⟩
  · exact ⟨_, rfl⟩

/-- What a step can do: refuse the configuration, idle, perform the first requested transaction, or refuse its word. -/
theorem step_cases (s : State) :
    (¬ s.cfg.wf = true ∧ step s = .refused .badConfiguration) ∨
    (s.cfg.wf = true ∧ s.pending = [] ∧ step s = .next s) ∨
    (s.cfg.wf = true ∧ ∃ e rest i t, s.pending = e :: rest ∧ decodeEvent e = .ok i ∧
      exec i { s with pending := rest } = .next t ∧ step s = .next t) ∨
    (s.cfg.wf = true ∧ ∃ e rest err, s.pending = e :: rest ∧ decodeEvent e = .error err ∧
      step s = .refused (.illFormedEvent e)) := by
  by_cases hwf : s.cfg.wf = true
  · cases hp : s.pending with
    | nil => exact .inr (.inl ⟨hwf, rfl, by simp only [step, hwf, hp, ↓reduceIte]⟩)
    | cons e rest =>
      cases hd : decodeEvent e with
      | ok i =>
        obtain ⟨t, ht⟩ := exec_decodeEvent_next hd { s with pending := rest }
        exact .inr (.inr (.inl ⟨hwf, e, rest, i, t, rfl, hd, ht, by simp only [step, hwf, hp, hd, ht, ↓reduceIte]⟩))
      | error err =>
        exact .inr (.inr (.inr ⟨hwf, e, rest, err, rfl, hd, by simp only [step, hwf, hp, hd, ↓reduceIte]⟩))
  · exact .inl ⟨hwf, by rw [step, if_neg hwf]⟩

/-- A step is refused as `badConfiguration` for no other reason than its configuration. -/
theorem step_eq_badConfiguration {s : State} : step s = .refused .badConfiguration ↔ ¬ s.cfg.wf = true := by
  rcases step_cases s with ⟨hwf, hs⟩ | ⟨hwf, -, hs⟩ | ⟨hwf, _, _, _, _, _, _, _, hs⟩ | ⟨hwf, _, _, _, _, _, hs⟩ <;>
    simp [hwf, hs]

end Sys2Proof.Machine

open Sys2Proof Sys2Proof.Machine

/-- Settles O7: only the configuration check of `step` answers `badConfiguration`, and it fails exactly when a
constraint of R8 is broken. The field `(0, 8)` of a keypad word, which the statement leaves out, is always in range. -/
theorem brokenConfigurationsAreRefused : Obligations.BrokenConfigurationsAreRefused := by
  intro s
  refine step_eq_badConfiguration.trans (Config.not_wf.trans (or_congr_right (or_congr_right (or_congr ?fields ?widths))))
  case fields => simp [configFields, statusFields, datetimeFields, dateFields, zoneFields, keypadFields]
  case widths => simp [dateFields]

end

/-! # What every transaction keeps, every step keeps; the invariants of R45 -/

section

namespace Sys2Proof.Machine

/-- A predicate that each of the four transactions keeps, and taking a request off the list too. -/
structure KeptByTransactions (P : State → Prop) : Prop where
  pending : ∀ s rest, P s → P { s with pending := rest }
  edge : ∀ r d now s, P s → P (Machine.edge r d now s)
  poll : ∀ a now s t, P s → execPoll a now s = .next t → P t
  arm : ∀ v s, P s → P { s with captureArmed := v }
  reset : ∀ s, P s → P { State.resetWith s.cfg with pending := s.pending }

/-- A predicate that the transactions keep is kept by the instruction of any event word. -/
theorem KeptByTransactions.exec {P : State → Prop} (hP : KeptByTransactions P) {e : EventWord} {i : Instr} {s t : State}
    (hd : decodeEvent e = .ok i) (hs : P s) (ht : Machine.exec i s = .next t) : P t := by
  rcases decodeEvent_transaction hd with ⟨d, now, rfl⟩ | ⟨d, now, rfl⟩ | ⟨a, now, rfl⟩ | ⟨v, rfl⟩ | rfl
  · cases ht
    exact hP.edge .panel d now s hs
  · cases ht
    exact hP.edge .keypad d now s hs
  · exact hP.poll a now s t hs ht
  · cases ht
    exact hP.arm v s hs
  · cases ht
    exact hP.reset s hs

/-- A predicate that the transactions keep is kept by every step. -/
theorem KeptByTransactions.step {P : State → Prop} (hP : KeptByTransactions P) {s t : State} (hs : P s)
    (h : Machine.step s = .next t) : P t := by
  rcases step_cases s with ⟨-, he⟩ | ⟨-, -, he⟩ | ⟨-, e, rest, i, u, -, hd, hu, he⟩ | ⟨-, e, rest, err, -, -, he⟩
  · cases he.symm.trans h
  · cases he.symm.trans h
    exact hs
  · cases he.symm.trans h
    exact hP.exec hd (hP.pending s rest hs) hu
  · cases he.symm.trans h

/-- A non-zero byte has a 1 among its bits. -/
theorem true_mem_byteBits {code : Byte} (h : code ≠ 0) : true ∈ byteBits code := by
  by_contra hn
  refine h (byteBits_injective ((List.eq_replicate_of_mem (a := false) fun b hb => ?_).trans rfl))
  exact eq_false_of_ne_true fun hb' => hn (hb' ▸ hb)

theorem edgeTiming_keeps_inv {now : Word} {s : State} (hs : s.Inv) : (edgeTiming now s).Inv := by
  by_cases hg : GapAt now s
  · rw [edgeTiming_of_gap hg]
    exact { hs with bldK_fits := Nat.zero_le _, cmpK_fits := hs.bldK_fits }
  · rw [edgeTiming_of_no_gap hg]
    exact { hs with }

theorem appendBit_keeps_inv {r : Role} {d : Bool} {s : State} (hs : s.Inv) : (appendBit r d s).Inv := by
  cases r with
  | panel =>
    by_cases hl : s.bldP.length < 200
    · rw [appendBit_panel_of_room hl]
      exact { hs with bldP_fits := by simpa using hl }
    · rw [appendBit_panel_of_full hl]
      exact { hs with }
  | keypad =>
    by_cases hl : s.bldK.length < 200
    · rw [appendBit_keypad_of_room hl]
      exact { hs with bldK_fits := by simpa using hl }
    · rw [appendBit_keypad_of_full hl]
      exact { hs with }

theorem edge_keeps_inv {r : Role} {d : Bool} {now : Word} {s : State} (hs : s.Inv) : (edge r d now s).Inv := by
  cases hc : s.captureArmed with
  | false => rwa [edge_disarmed hc]
  | true =>
    rw [edge_armed hc]
    exact appendBit_keeps_inv (edgeTiming_keeps_inv hs)

/-- An accepted panel word is stored with its non-zero command byte (R162, R165). -/
theorem PanelRowEffect.keeps_inv {code : Byte} {tail w : Bits} {now : Word} {a : Bool} {s t : State}
    (h : PanelRowEffect code w now a s t) (hw : w = byteBits code ++ tail) (hfits : w.length ≤ 200) (hs : s.Inv) :
    t.Inv := by
  rcases h.verdict with ⟨-, ht⟩ | ⟨-, hc, -, -, hp, -⟩
  · rw [ht]
    exact { hs with }
  · have named : 8 ≤ w.length ∧ true ∈ w.take 8 := by
      rw [hw, take_command]
      exact ⟨by simp, true_mem_byteBits hc⟩
    rw [h.frame, hp]
    exact { hs with prvP_fits := hfits, prvP_named := .inr named }

/-- An accepted keypad word holds a 0 bit (R200, R202). -/
theorem KeypadRowEffect.keeps_inv {w : Bits} {now : Word} {s t : State} (h : KeypadRowEffect w now s t)
    (hfits : w.length ≤ 200) (hs : s.Inv) : t.Inv := by
  rcases h.verdict with ⟨-, ht⟩ | ⟨-, hz, hk, -, -⟩
  · rw [ht]
    exact { hs with }
  · rw [h.frame, hk]
    exact { hs with prvK_fits := hfits, prvK_heard := .inr hz }

/-- A guard pass promotes a word of at least eight bits (R141, R143), and the two rows keep the invariants. -/
theorem execPoll_keeps_inv {a : Bool} {now : Word} {s t : State} (hs : s.Inv) (h : execPoll a now s = .next t) :
    t.Inv := by
  rcases execPoll_cases a now s with ⟨-, he⟩ | ⟨hg, code, p, k, hw, hp, hk, he⟩
  · cases he.symm.trans h
    exact { hs with }
  · cases he.symm.trans h
    have promoted : (clearEvents (promote .panel (beginPoll now s))).Inv :=
      { hs with
        bldP_fits := Nat.zero_le _
        cmpP_fits := hs.bldP_fits
        cmpP_long := .inr (framerGuard_eq_true.mp hg).2 }
    exact { hk.keeps_inv hs.cmpK_fits (hp.keeps_inv hw hs.bldP_fits promoted) with }

theorem resetWith_inv (c : Config) : (State.resetWith c).Inv where
  bldP_fits := Nat.zero_le _
  bldK_fits := Nat.zero_le _
  cmpP_fits := Nat.zero_le _
  cmpK_fits := Nat.zero_le _
  prvP_fits := Nat.zero_le _
  prvK_fits := Nat.zero_le _
  cmpP_long := .inl rfl
  prvP_named := .inl rfl
  prvK_heard := .inl rfl

theorem inv_keptByTransactions : KeptByTransactions State.Inv where
  pending _ _ hs := { hs with }
  edge _ _ _ _ hs := edge_keeps_inv hs
  poll _ _ _ _ hs h := execPoll_keeps_inv hs h
  arm _ _ hs := { hs with }
  reset s _ := { resetWith_inv s.cfg with }

end Sys2Proof.Machine

open Sys2Proof Sys2Proof.Machine

/-- Settles O51: the invariants of R45 are kept by each transaction, so by every step. -/
theorem everyStepKeepsTheInvariants : Obligations.EveryStepKeepsTheInvariants :=
  fun _ _ hs h => inv_keptByTransactions.step hs h

/-- Settles O52: after reset all six sequences are empty. -/
theorem resetMeetsTheInvariants : Obligations.ResetMeetsTheInvariants :=
  ⟨resetWith_inv, resetWith_inv Config.testConfig⟩

end

/-! # The diagnostics influence nothing (R25, R30, R211) -/

section

namespace Sys2Proof.Machine

/-- `andThen` ends in a next state when both parts do. -/
theorem andThen_eq_next {r : Result} {f : State → Result} {t : State} :
    andThen r f = .next t ↔ ∃ s, r = .next s ∧ f s = .next t := by
  cases r <;> simp [andThen]

/-- Where `f` answers a next state, it answers one from other diagnostics too, different in the diagnostics alone. -/
def IgnoresDiagnostics (f : State → Result) : Prop :=
  ∀ (s t : State) (dP dK : Bool) (pK : Bits) (ts : Word), f s = .next t →
    ∃ dP' dK' pK' ts', f (s.withDiagnostics dP dK pK ts) = .next (t.withDiagnostics dP' dK' pK' ts')

/-- The same for an update of the state. -/
def UpdateIgnoresDiagnostics (g : State → State) : Prop :=
  ∀ (s : State) (dP dK : Bool) (pK : Bits) (ts : Word),
    ∃ dP' dK' pK' ts', g (s.withDiagnostics dP dK pK ts) = (g s).withDiagnostics dP' dK' pK' ts'

/-- A branch reads no diagnostic and writes none. -/
def Branch.IgnoresDiagnostics (b : Branch) : Prop :=
  ∀ (w : Bits) (now : Word) (s : State) (dP dK : Bool) (pK : Bits) (ts : Word),
    b w now (s.withDiagnostics dP dK pK ts) = (·.withDiagnostics dP dK pK ts) <$> b w now s

theorem UpdateIgnoresDiagnostics.next {g : State → State} (hg : UpdateIgnoresDiagnostics g) :
    IgnoresDiagnostics fun s => .next (g s) := by
  rintro s _ dP dK pK ts ⟨⟩
  obtain ⟨dP', dK', pK', ts', h⟩ := hg s dP dK pK ts
  exact ⟨dP', dK', pK', ts', congrArg _ h⟩

theorem UpdateIgnoresDiagnostics.comp {g h : State → State} (hg : UpdateIgnoresDiagnostics g)
    (hh : UpdateIgnoresDiagnostics h) : UpdateIgnoresDiagnostics fun s => g (h s) := by
  intro s dP dK pK ts
  obtain ⟨dP', dK', pK', ts', e⟩ := hh s dP dK pK ts
  dsimp only
  rw [e]
  exact hg _ _ _ _ _

theorem IgnoresDiagnostics.comp {f : State → Result} {g : State → State} (hf : IgnoresDiagnostics f)
    (hg : UpdateIgnoresDiagnostics g) : IgnoresDiagnostics fun s => f (g s) := by
  intro s t dP dK pK ts h
  obtain ⟨dP', dK', pK', ts', e⟩ := hg s dP dK pK ts
  dsimp only
  rw [e]
  exact hf _ _ _ _ _ _ h

theorem IgnoresDiagnostics.andThen {f g : State → Result} (hf : IgnoresDiagnostics f) (hg : IgnoresDiagnostics g) :
    IgnoresDiagnostics fun s => Machine.andThen (f s) g := by
  intro s t dP dK pK ts h
  obtain ⟨u, hu, ht⟩ := andThen_eq_next.mp h
  obtain ⟨dP', dK', pK', ts', e⟩ := hf s u dP dK pK ts hu
  dsimp only
  rw [e]
  exact hg _ _ _ _ _ _ ht

/-! ## EDGE -/

theorem edgeTiming_ignoresDiagnostics (now : Word) : UpdateIgnoresDiagnostics (edgeTiming now) := by
  intro s dP dK pK ts
  by_cases hg : GapAt now s
  · exact ⟨dP, false, pK, ts, by rw [edgeTiming_of_gap hg, edgeTiming_of_gap (s := s.withDiagnostics dP dK pK ts) hg]; rfl⟩
  · exact ⟨dP, dK, pK, ts,
      by rw [edgeTiming_of_no_gap hg, edgeTiming_of_no_gap (s := s.withDiagnostics dP dK pK ts) hg]; rfl⟩

theorem appendBit_ignoresDiagnostics (r : Role) (d : Bool) : UpdateIgnoresDiagnostics (appendBit r d) := by
  intro s dP dK pK ts
  cases r with
  | panel =>
    by_cases hl : s.bldP.length < 200
    · exact ⟨dP, dK, pK, ts,
        by rw [appendBit_panel_of_room hl, appendBit_panel_of_room (s := s.withDiagnostics dP dK pK ts) hl]; rfl⟩
    · exact ⟨true, dK, pK, ts,
        by rw [appendBit_panel_of_full hl, appendBit_panel_of_full (s := s.withDiagnostics dP dK pK ts) hl]; rfl⟩
  | keypad =>
    by_cases hl : s.bldK.length < 200
    · exact ⟨dP, dK, pK, ts,
        by rw [appendBit_keypad_of_room hl, appendBit_keypad_of_room (s := s.withDiagnostics dP dK pK ts) hl]; rfl⟩
    · exact ⟨dP, true, pK, ts,
        by rw [appendBit_keypad_of_full hl, appendBit_keypad_of_full (s := s.withDiagnostics dP dK pK ts) hl]; rfl⟩

theorem edge_ignoresDiagnostics (r : Role) (d : Bool) (now : Word) : UpdateIgnoresDiagnostics (edge r d now) := by
  intro s dP dK pK ts
  cases hc : s.captureArmed with
  | false => exact ⟨dP, dK, pK, ts, by rw [edge_disarmed hc]; exact edge_disarmed hc⟩
  | true =>
    rw [edge_armed hc, edge_armed (s := s.withDiagnostics dP dK pK ts) hc]
    exact (appendBit_ignoresDiagnostics r d).comp (edgeTiming_ignoresDiagnostics now) s dP dK pK ts

/-! ## The panel row -/

theorem statusBranch_ignoresDiagnostics : statusBranch.IgnoresDiagnostics := by
  intro w now s dP dK pK ts
  simp only [statusBranch, map_bind]
  rfl

theorem datetimeBranch_ignoresDiagnostics (a : Bool) : (datetimeBranch a).IgnoresDiagnostics := by
  intro w now s dP dK pK ts
  simp only [datetimeBranch, map_bind]
  rfl

theorem zoneBranch_ignoresDiagnostics (g : ZoneGroup) (off : Nat) : (zoneBranch g off).IgnoresDiagnostics := by
  intro w now s dP dK pK ts
  simp only [zoneBranch, map_bind]
  rfl

theorem messageBranch_ignoresDiagnostics (ev : PanelEvent) : (messageBranch ev).IgnoresDiagnostics :=
  fun _ _ _ _ _ _ _ => rfl

/-- The branch of every command byte ignores the diagnostics. -/
theorem panelBranch_ignoresDiagnostics (c : Config) (code : Byte) (a : Bool) :
    (panelBranch c code a).IgnoresDiagnostics := by
  refine panelCode_cases (P := fun code => (panelBranch c code a).IgnoresDiagnostics) code
    (null := messageBranch_ignoresDiagnostics _) (status := statusBranch_ignoresDiagnostics)
    (datetime := datetimeBranch_ignoresDiagnostics a) (zoneA := zoneBranch_ignoresDiagnostics _ _)
    (zoneB := zoneBranch_ignoresDiagnostics _ _) (zoneC := zoneBranch_ignoresDiagnostics _ _)
    (zoneD := zoneBranch_ignoresDiagnostics _ _) (label11 := messageBranch_ignoresDiagnostics _)
    (label0A := messageBranch_ignoresDiagnostics _) (label5D := messageBranch_ignoresDiagnostics _)
    (label63 := messageBranch_ignoresDiagnostics _) (label64 := messageBranch_ignoresDiagnostics _)
    (label69 := messageBranch_ignoresDiagnostics _) (label39 := messageBranch_ignoresDiagnostics _)
    (labelB1 := messageBranch_ignoresDiagnostics _) (raw := fun hn => ?_)
  rw [panelBranch, panelCase_raw hn]
  exact messageBranch_ignoresDiagnostics _

/-- PanelDecode with a branch that ignores the diagnostics ignores them: its gate reads `prv[P]` and the configuration. -/
theorem panelRun_ignoresDiagnostics {b : Branch} (hb : b.IgnoresDiagnostics) (code : Byte) (fs : List FieldSpec)
    (st : DStat) (tail : Bits) (now : Word) : IgnoresDiagnostics (panelRun code fs b st tail now) := by
  intro s t dP dK pK ts h
  cases hg : panelGate code (byteBits code ++ tail) fs s with
  | some why =>
    have ht := (panelRun_of_rejected (b := b) (st := st) (now := now) hg).symm.trans h
    cases ht
    exact ⟨dP, dK, pK, ts, panelRun_of_rejected (s := s.withDiagnostics dP dK pK ts) hg⟩
  | none =>
    cases hu : b (byteBits code ++ tail) now (commit .panel (byteBits code ++ tail) now s) with
    | error r => simp only [panelRun, hg, hu, reduceCtorEq] at h
    | ok u =>
      cases (panelRun_of_accepted hg hu).symm.trans h
      refine ⟨dP, dK, pK, now, panelRun_of_accepted (s := s.withDiagnostics dP dK pK ts)
        (t := u.withDiagnostics dP dK pK now) hg ?_⟩
      exact (hb _ now (commit .panel (byteBits code ++ tail) now s) dP dK pK now).trans (by rw [hu]; rfl)

/-- The panel row of the completed panel word. -/
theorem panelRow_ignoresDiagnostics (now : Word) (a : Bool) : IgnoresDiagnostics fun s => panelRow s.cmpP now a s := by
  intro s t dP dK pK ts h
  by_cases hl : 8 ≤ s.cmpP.length
  · change panelRow s.cmpP now a s = .next t at h
    change ∃ dP' dK' pK' ts', panelRow s.cmpP now a (s.withDiagnostics dP dK pK ts) = _
    rw [word_split hl, panelRow_command] at h ⊢
    exact panelRun_ignoresDiagnostics (panelBranch_ignoresDiagnostics _ _ _) _ _ _ _ _ s t dP dK pK ts h
  · simp only [panelRow, extract_of_short (show s.cmpP.length < 0 + 8 by omega), reduceCtorEq] at h

/-! ## The keypad row -/

/-- The keypad row of the completed keypad word: `prv[K]` and `lastDataTs` are written, and never read (R211). -/
theorem keypadRow_ignoresDiagnostics (now : Word) : IgnoresDiagnostics fun s => keypadRow s.cmpK now s := by
  intro s t dP dK pK ts h
  simp only [keypadRow_eq] at h ⊢
  change ∃ dP' dK' pK' ts', keypadRun s.cmpK now (s.withDiagnostics dP dK pK ts) = _
  by_cases hz : false ∈ s.cmpK
  · by_cases hl : 8 ≤ s.cmpK.length ∧ s.cfg.kpByte2Off + 8 ≤ s.cmpK.length
    · cases (keypadRun_accept hz hl.1 hl.2 now).symm.trans h
      exact ⟨dP, dK, s.cmpK, now, keypadRun_accept (s := s.withDiagnostics dP dK pK ts) hz hl.1 hl.2 now⟩
    · cases (keypadRun_short hz hl now).symm.trans h
      exact ⟨dP, dK, pK, ts, keypadRun_short (s := s.withDiagnostics dP dK pK ts) hz hl now⟩
  · cases (keypadRun_noise hz now s).symm.trans h
    exact ⟨dP, dK, pK, ts, keypadRun_noise hz now _⟩

/-! ## POLL and the step -/

theorem framePass_ignoresDiagnostics (a : Bool) (now : Word) : IgnoresDiagnostics (framePass a now) := by
  have promoted : UpdateIgnoresDiagnostics fun s => clearEvents (promote .panel s) :=
    fun _ _ dK pK ts => ⟨false, dK, pK, ts, rfl⟩
  have reported : UpdateIgnoresDiagnostics endPoll := fun _ dP dK pK ts => ⟨dP, dK, pK, ts, rfl⟩
  exact ((panelRow_ignoresDiagnostics now a).andThen
    ((keypadRow_ignoresDiagnostics now).andThen reported.next)).comp promoted

theorem execPoll_ignoresDiagnostics (a : Bool) (now : Word) : IgnoresDiagnostics (execPoll a now) := by
  intro s t dP dK pK ts h
  by_cases hg : framerGuard s = true
  · rw [execPoll_of_guard_passes hg] at h
    rw [execPoll_of_guard_passes (s := s.withDiagnostics dP dK pK ts) hg]
    exact framePass_ignoresDiagnostics a now (beginPoll now s) t dP dK pK ts h
  · cases (execPoll_of_guard_fails hg).symm.trans h
    exact ⟨dP, dK, pK, ts, execPoll_of_guard_fails (s := s.withDiagnostics dP dK pK ts) hg⟩

/-- No transaction reads a diagnostic. -/
theorem exec_decodeEvent_ignoresDiagnostics {e : EventWord} {i : Instr} (h : decodeEvent e = .ok i) :
    IgnoresDiagnostics (exec i) := by
  rcases decodeEvent_transaction h with ⟨d, now, rfl⟩ | ⟨d, now, rfl⟩ | ⟨a, now, rfl⟩ | ⟨v, rfl⟩ | rfl
  · exact (edge_ignoresDiagnostics .panel d now).next
  · exact (edge_ignoresDiagnostics .keypad d now).next
  · exact execPoll_ignoresDiagnostics a now
  · exact UpdateIgnoresDiagnostics.next fun _ dP dK pK ts => ⟨dP, dK, pK, ts, rfl⟩
  · exact UpdateIgnoresDiagnostics.next fun _ _ _ _ _ => ⟨false, false, [], 0, rfl⟩

/-! The step on its three kinds of request. -/

theorem step_of_idle {s : State} (hwf : s.cfg.wf = true) (hp : s.pending = []) : step s = .next s := by
  simp only [step, hwf, hp, ↓reduceIte]

theorem step_of_request {s : State} {e : EventWord} {rest : List EventWord} {i : Instr} (hwf : s.cfg.wf = true)
    (hp : s.pending = e :: rest) (hd : decodeEvent e = .ok i) : step s = exec i { s with pending := rest } := by
  simp only [step, hwf, hp, hd, ↓reduceIte]

theorem step_of_illFormed {s : State} {e : EventWord} {rest : List EventWord} {err : DecodeError}
    (hwf : s.cfg.wf = true) (hp : s.pending = e :: rest) (hd : decodeEvent e = .error err) :
    step s = .refused (.illFormedEvent e) := by
  simp only [step, hwf, hp, hd, ↓reduceIte]

theorem step_ignoresDiagnostics : IgnoresDiagnostics step := by
  intro s t dP dK pK ts h
  rcases step_cases s with ⟨-, he⟩ | ⟨hwf, hp, he⟩ | ⟨hwf, e, rest, i, u, hp, hd, hu, he⟩ | ⟨-, e, rest, err, -, -, he⟩
  · cases he.symm.trans h
  · cases he.symm.trans h
    exact ⟨dP, dK, pK, ts, step_of_idle (s := s.withDiagnostics dP dK pK ts) hwf hp⟩
  · cases he.symm.trans h
    rw [step_of_request (s := s.withDiagnostics dP dK pK ts) hwf hp hd]
    exact exec_decodeEvent_ignoresDiagnostics hd { s with pending := rest } t dP dK pK ts hu
  · cases he.symm.trans h

/-- A refusal names the configuration or the request, and no diagnostic. -/
theorem step_refused_withDiagnostics {s : State} {r : Refusal} (h : step s = .refused r) (dP dK : Bool) (pK : Bits)
    (ts : Word) : step (s.withDiagnostics dP dK pK ts) = .refused r := by
  rcases step_cases s with ⟨hwf, he⟩ | ⟨-, -, he⟩ | ⟨-, e, rest, i, u, -, -, -, he⟩ | ⟨hwf, e, rest, err, hp, hd, he⟩
  · cases he.symm.trans h
    exact step_eq_badConfiguration.mpr hwf
  · cases he.symm.trans h
  · cases he.symm.trans h
  · cases he.symm.trans h
    exact step_of_illFormed (s := s.withDiagnostics dP dK pK ts) hwf hp hd

end Sys2Proof.Machine

open Sys2Proof Sys2Proof.Machine

/-- Settles O58: a step looks at the configuration and the requests, which are no diagnostics, and the transaction that it
performs ignores the diagnostics. -/
theorem diagnosticsInfluenceNothing : Obligations.DiagnosticsInfluenceNothing :=
  fun s dP dK pK ts => ⟨fun t h => step_ignoresDiagnostics s t dP dK pK ts h,
    fun _ h => step_refused_withDiagnostics h dP dK pK ts⟩

end

/-! # What POLL writes: its frame (R42), the time-sync port (R46), the parameters and DATA_OUT (R41, R47) -/

section

namespace Sys2Proof.Machine

theorem pollPasses_iff {s : State} : PollPasses s ↔ framerGuard s = true := framerGuard_eq_true.symm

/-- The registers that POLL writes; the others are as before. -/
theorem execPoll_frame {a : Bool} {now : Word} {s t : State} (h : execPoll a now s = .next t) :
    t = { t with
      cfg := s.cfg, pending := s.pending, bldK := s.bldK, cmpK := s.cmpK, dropK := s.dropK
      lastEdgeTs := s.lastEdgeTs, edgeInterval := s.edgeInterval, captureArmed := s.captureArmed
      dataOut := s.dataOut } := by
  rcases execPoll_cases a now s with ⟨-, he⟩ | ⟨-, code, p, k, -, hp, hk, he⟩
  · cases he.symm.trans h
    rfl
  · cases he.symm.trans h
    rw [hk.frame, hp.frame]
    rfl

/-- A POLL writes the building and the completed panel sequence on a guard pass only (R143, R147). -/
theorem execPoll_panelCapture {a : Bool} {now : Word} {s t : State} (h : execPoll a now s = .next t) :
    (PollPasses s → t.bldP = [] ∧ t.cmpP = s.bldP ∧ t.dropP = false) ∧
      (¬ PollPasses s → t.bldP = s.bldP ∧ t.cmpP = s.cmpP ∧ t.dropP = s.dropP) := by
  rw [pollPasses_iff]
  rcases execPoll_cases a now s with ⟨hg, he⟩ | ⟨hg, code, p, k, -, hp, hk, he⟩
  · cases he.symm.trans h
    exact ⟨fun hg' => absurd hg' hg, fun _ => ⟨rfl, rfl, rfl⟩⟩
  · cases he.symm.trans h
    rw [hk.frame, hp.frame]
    exact ⟨fun _ => ⟨rfl, rfl, rfl⟩, fun hg' => absurd hg hg'⟩

/-- A command output of 0xa5 tells that a date and time word was accepted: the pulse is raised, and the port takes TSYNC's
answer and 16 bits of each value of the message (R46, R168). -/
theorem PanelRowEffect.pulse_of_datetime {code : Byte} {w : Bits} {now : Word} {a : Bool} {s t : State}
    (h : PanelRowEffect code w now a s t) (hc : t.cmdOutP = 0xa5) :
    t.tsValid = true ∧ t.tsOk = a ∧ ∃ y mo d h mi arm master user, t.evP = .datetime y mo d h mi arm master user ∧
      t.tsYear.toNat = y % 65536 ∧ t.tsMonth.toNat = mo % 65536 ∧ t.tsDay.toNat = d % 65536 ∧
      t.tsHour.toNat = h % 65536 ∧ t.tsMinute.toNat = mi % 65536 := by
  rcases h.verdict with ⟨-, ht⟩ | ⟨-, -, -, hcode, -, -, -, pulse⟩
  · have h0 : t.cmdOutP = 0 := by rw [ht]
    exact absurd (h0.symm.trans hc) (by decide)
  · obtain ⟨hv, hok, y, mo, d, ho, mi, arm, master, user, hev, hy, hmo, hd, hho, hmi⟩ := pulse (hcode ▸ hc)
    refine ⟨hv, hok, y, mo, d, ho, mi, arm, master, user, hev, ?_⟩
    rw [hy, hmo, hd, hho, hmi]
    simp

/-- The panel row raises the pulse exactly when it accepts a 0xa5 word (R46, R168). -/
theorem PanelRowEffect.tsValid_iff {code : Byte} {w : Bits} {now : Word} {a : Bool} {s t : State}
    (h : PanelRowEffect code w now a s t) (hs : s.tsValid = false) : t.tsValid = true ↔ t.cmdOutP = 0xa5 := by
  refine ⟨fun hv => ?_, fun hc => (h.pulse_of_datetime hc).1⟩
  by_contra hc
  exact absurd (hv.symm.trans ((h.timeSync hc).1.trans hs)) (by decide)

/-- The parameters are as in `s`, and DATA_OUT is released if it was released in `s`. -/
def ParametersAndReleaseOf (s t : State) : Prop := t.cfg = s.cfg ∧ (s.dataOut = .released → t.dataOut = .released)

theorem parametersAndReleaseOf_keptByTransactions (s : State) : KeptByTransactions (ParametersAndReleaseOf s) where
  pending _ _ h := h
  edge _ _ _ _ h := by rwa [ParametersAndReleaseOf, edge_cfg, edge_dataOut]
  poll _ _ _ _ h ht := by rwa [execPoll_frame ht]
  arm _ _ h := h
  reset _ h := ⟨h.1, fun _ => rfl⟩

end Sys2Proof.Machine

open Sys2Proof Sys2Proof.Machine

/-- Settles O20: neither the guard failure nor the two rows of a guard pass write one of these registers. -/
theorem pollFrame : Obligations.PollFrame := by
  intro a now s t h
  rw [execPoll_frame h]
  exact ⟨rfl, rfl, rfl, rfl, rfl, rfl, rfl, rfl, rfl⟩

/-- Settles O22: POLL ends the pulse first, and then only an accepted 0xa5 word raises it. -/
theorem timeSyncPulseLastsOnePoll : Obligations.TimeSyncPulseLastsOnePoll := by
  intro a now s
  rw [pollPasses_iff]
  rcases execPoll_cases a now s with ⟨hg, he⟩ | ⟨hg, code, p, k, -, hp, hk, he⟩
  · exact ⟨_, he, iff_of_false Bool.false_ne_true fun h => hg h.1, fun h => absurd h Bool.false_ne_true,
      fun _ => ⟨rfl, rfl, rfl, rfl, rfl, rfl⟩⟩
  · have hiff : p.tsValid = true ↔ p.cmdOutP = 0xa5 := hp.tsValid_iff rfl
    refine ⟨_, he, ?_⟩
    rw [hk.frame]
    refine ⟨hiff.trans (and_iff_right hg).symm, fun hv => (hp.pulse_of_datetime (hiff.mp hv)).2, fun hv => ?_⟩
    have hc : p.cmdOutP ≠ 0xa5 := fun hc => absurd (hv.symm.trans (hiff.mpr hc)) Bool.false_ne_true
    exact (hp.timeSync hc).2

/-- Settles O55: no transaction writes the configuration, and RESET alone writes DATA_OUT, with `released`. -/
theorem parametersAndDataOutNeverChange : Obligations.ParametersAndDataOutNeverChange :=
  fun s _ h => (parametersAndReleaseOf_keptByTransactions s).step ⟨rfl, id⟩ h

end

/-! # The packed views and the word ports (R37, R38, R40) -/

section

namespace Sys2Proof.Machine

/-- The codes above 7 are reserved (R221). -/
theorem DStat.code_le (st : DStat) : st.code.toNat ≤ 7 := by
  cases st <;> decide

/-- Two fields side by side are the upper one shifted by the width of the lower one, plus the lower one. -/
theorem toNat_append_eq_add {m n : Nat} (x : BitVec m) (y : BitVec n) : (x ++ y).toNat = x.toNat * 2 ^ n + y.toNat := by
  rw [BitVec.toNat_append, ← Nat.shiftLeft_add_eq_or_of_lt y.isLt, Nat.shiftLeft_eq]

/-- The bits of `x`, from the lowest up, and then 0. -/
def BitsFromLowest {n : Nat} (x : BitVec n) (bits : List Bool) : Prop := ∀ i, x.getLsbD i = bits.getD i false

theorem bitsFromLowest_ofBool (b : Bool) : BitsFromLowest (BitVec.ofBool b) [b] := fun i => by
  cases i <;> simp

theorem BitsFromLowest.append_ofBool {n : Nat} {x : BitVec n} {bits : List Bool} (h : BitsFromLowest x bits) (b : Bool) :
    BitsFromLowest (x ++ BitVec.ofBool b) (b :: bits) := fun i => by
  rw [BitVec.getLsbD_append]
  cases i with
  | zero => simp
  | succ i => simp [h i]

theorem flagsView_bits (s : State) : BitsFromLowest (flagsView s)
    [s.statusLed, s.statusSeen, s.dropP, s.dropK, s.tsValid, s.tsOk, s.captureArmed] :=
  ((((((bitsFromLowest_ofBool _).append_ofBool _).append_ofBool _).append_ofBool _).append_ofBool _).append_ofBool
    _).append_ofBool _

end Sys2Proof.Machine

open Sys2Proof Sys2Proof.Machine

/-- Settles O49: each view is its registers side by side. -/
theorem packedViewsShowTheirRegisters : Obligations.PackedViewsShowTheirRegisters := fun s =>
  have bit := flagsView_bits s
  ⟨bit 0, bit 1, bit 2, bit 3, bit 4, bit 5, bit 6, rfl, toNat_append_eq_add _ _, toNat_append_eq_add _ _,
    s.dstatK.code_le, s.dstatP.code_le⟩

/-- Settles O50: the digit of weight `2^i` of the reversed word is the word's position `i`. -/
theorem wordPortsShowTheWord : Obligations.WordPortsShowTheWord := by
  intro w hw
  refine ⟨?length, fun i hi => ?data⟩
  case length => simp [wordPort, Nat.mod_eq_of_lt (show w.length < 256 by omega)]
  case data =>
    calc (wordPort w).data.getLsbD i
      _ = (fieldValue w.reverse).testBit i := by rw [wordPort, BitVec.getLsbD_ofNat, decide_eq_true hi, Bool.true_and]
      _ = w.getD i false := by rw [fieldValue_testBit, List.reverse_reverse]

end

/-! # Who writes a register (R42), and who sets and clears statusSeen (R29) -/

section

namespace Sys2Proof.Machine

/-! ## EDGE -/

theorem edge_bldP (r : Role) (d : Bool) (now : Word) (s : State) :
    (edge r d now s).bldP = s.bldP ∨ ∃ b, (edge r d now s).bldP = s.bldP ++ [b] := by
  cases hc : s.captureArmed with
  | false => exact .inl (by rw [edge_disarmed hc])
  | true =>
    rw [edge_armed hc]
    cases r with
    | keypad => exact .inl (by simp)
    | panel =>
      rw [appendBit_panel_bldP, edgeTiming_bldP]
      split
      · exact .inr ⟨d, rfl⟩
      · exact .inl rfl

/-- An edge sets `drop[P]` at most (R124). -/
theorem edge_keeps_dropP {r : Role} {d : Bool} {now : Word} {s : State} (h : s.dropP = true) :
    (edge r d now s).dropP = true := by
  cases hc : s.captureArmed with
  | false => rwa [edge_disarmed hc]
  | true =>
    rw [edge_armed hc]
    cases r with
    | keypad => simpa using h
    | panel => simp [appendBit_panel_dropP, h]

/-- Without a gap an edge may append to `bld[K]`; with one it promotes `bld[K]` and then may append its bit (R121, R123). -/
theorem edge_keypadCapture (r : Role) (d : Bool) (now : Word) (s : State) :
    ((edge r d now s).cmpK = s.cmpK ∧
      ((edge r d now s).bldK = s.bldK ∨ ∃ b, (edge r d now s).bldK = s.bldK ++ [b])) ∨
    (s.cfg.tBoundary - s.cfg.mCapture < (edge r d now s).edgeInterval.toNat ∧ (edge r d now s).cmpK = s.bldK ∧
      (edge r d now s).dropK = false ∧ ((edge r d now s).bldK = [] ∨ ∃ b, (edge r d now s).bldK = [b])) := by
  cases hc : s.captureArmed with
  | false =>
    rw [edge_disarmed hc]
    exact .inl ⟨rfl, .inl rfl⟩
  | true =>
    rw [edge_armed hc]
    by_cases hg : GapAt now s
    · rw [edgeTiming_of_gap hg]
      cases r with
      | panel => exact .inr ⟨by simpa using hg, by simp, by simp, .inl (by simp)⟩
      | keypad =>
        rw [appendBit_keypad_of_room (by simp)]
        exact .inr ⟨hg, rfl, rfl, .inr ⟨d, rfl⟩⟩
    · rw [edgeTiming_of_no_gap hg]
      cases r with
      | panel => exact .inl ⟨by simp, .inl (by simp)⟩
      | keypad =>
        refine .inl ⟨by simp, ?_⟩
        rw [appendBit_keypad_bldK]
        split
        · exact .inr ⟨d, rfl⟩
        · exact .inl rfl

/-! ## Which instruction is which -/

/-- The two forms of EDGE, and the three other transactions. -/
theorem transactionOf_eq_some {i : Instr} {k : Transaction} (h : transactionOf i = some k) :
    (k = .edge ∧ ∃ r d now, ∀ s, exec i s = .next (edge r d now s)) ∨ (k = .poll ∧ ∃ a now, i = .poll a now) ∨
      (k = .arm ∧ ∃ v, i = .arm v) ∨ (k = .reset ∧ i = .reset) := by
  cases i with
  | rise d now => cases h; exact .inl ⟨rfl, .panel, d, now, fun _ => rfl⟩
  | fall d now => cases h; exact .inl ⟨rfl, .keypad, d, now, fun _ => rfl⟩
  | poll a now => cases h; exact .inr (.inl ⟨rfl, a, now, rfl⟩)
  | arm v => cases h; exact .inr (.inr (.inl ⟨rfl, v, rfl⟩))
  | reset => cases h; exact .inr (.inr (.inr ⟨rfl, rfl⟩))
  | _ => cases h

/-- An instruction that is no transaction is PanelDecode of a word, P_RAW (with any code), or KeypadDecode of a word. -/
theorem exec_of_no_transaction {i : Instr} (h : transactionOf i = none) (s : State) :
    (∃ code tail now a, exec i s = panelRow (byteBits code ++ tail) now a s) ∨
      (∃ code tail now, i = .pRaw code tail now) ∨ ∃ w now, exec i s = keypadRun w now s := by
  cases i with
  | rise | fall | poll | arm | reset => cases h
  | pNull tail => exact .inl ⟨_, _, _, _, exec_panelInstr 0x00 tail 0 false s⟩
  | pStatus tail now => exact .inl ⟨_, _, _, _, exec_panelInstr 0x05 tail now false s⟩
  | pDatetime tail now a => exact .inl ⟨_, _, _, _, exec_panelInstr 0xa5 tail now a s⟩
  | pZoneA tail now => exact .inl ⟨_, _, _, _, exec_panelInstr 0x27 tail now false s⟩
  | pZoneB tail now => exact .inl ⟨_, _, _, _, exec_panelInstr 0x2d tail now false s⟩
  | pZoneC tail now => exact .inl ⟨_, _, _, _, exec_panelInstr 0x34 tail now false s⟩
  | pZoneD tail now => exact .inl ⟨_, _, _, _, exec_panelInstr 0x3e tail now false s⟩
  | pLabel11 tail now => exact .inl ⟨_, _, _, _, exec_panelInstr 0x11 tail now false s⟩
  | pLabel0A tail now => exact .inl ⟨_, _, _, _, exec_panelInstr 0x0a tail now false s⟩
  | pLabel5D tail now => exact .inl ⟨_, _, _, _, exec_panelInstr 0x5d tail now false s⟩
  | pLabel63 tail now => exact .inl ⟨_, _, _, _, exec_panelInstr 0x63 tail now false s⟩
  | pLabel64 tail now => exact .inl ⟨_, _, _, _, exec_panelInstr 0x64 tail now false s⟩
  | pLabel69 tail now => exact .inl ⟨_, _, _, _, exec_panelInstr 0x69 tail now false s⟩
  | pLabel39 tail now => exact .inl ⟨_, _, _, _, exec_panelInstr 0x39 tail now false s⟩
  | pLabelB1 tail now => exact .inl ⟨_, _, _, _, exec_panelInstr 0xb1 tail now false s⟩
  | pRaw code tail now => exact .inr (.inl ⟨code, tail, now, rfl⟩)
  | kNoise | kButton | kFire | kAux | kPanic | kOther => exact .inr (.inr ⟨_, _, rfl⟩)

/-! ## statusSeen -/

/-- `statusSeen` is kept, or set by a status command that was committed. -/
def StatusSeenKeptOrSet (s t : State) : Prop :=
  t.statusSeen = s.statusSeen ∨ (t.statusSeen = true ∧ t.cmdOutP = 0x05 ∧ t.dstatP = .ok)

theorem PanelRowEffect.statusSeen {code : Byte} {w : Bits} {now : Word} {a : Bool} {s t : State}
    (h : PanelRowEffect code w now a s t) : StatusSeenKeptOrSet s t := by
  by_cases hc : t.cmdOutP = 0x05
  · rcases h.verdict with ⟨-, ht⟩ | ⟨-, -, hst, hcode, -, -, seen, -⟩
    · exact .inl (by rw [ht])
    · obtain rfl : code = 0x05 := hcode.symm.trans hc
      exact .inr ⟨seen rfl, hc, hst⟩
  · exact .inl (h.status hc).2

theorem KeypadRowEffect.statusSeen {w : Bits} {now : Word} {s₀ s t : State} (h : KeypadRowEffect w now s t)
    (hs : StatusSeenKeptOrSet s₀ s) : StatusSeenKeptOrSet s₀ t := by
  rw [h.frame]
  exact hs

theorem execPoll_statusSeen {a : Bool} {now : Word} {s t : State} (h : execPoll a now s = .next t) :
    StatusSeenKeptOrSet s t := by
  rcases execPoll_cases a now s with ⟨-, he⟩ | ⟨-, code, p, k, -, hp, hk, he⟩
  · cases he.symm.trans h
    exact .inl rfl
  · cases he.symm.trans h
    exact hk.statusSeen (s₀ := s) hp.statusSeen

theorem execPRaw_statusSeen {code : Byte} {tail : Bits} {now : Word} {s t : State}
    (h : execPRaw code tail now s = .next t) : t.statusSeen = s.statusSeen := by
  unfold execPRaw at h
  cases hg : panelGate code (byteBits code ++ tail) noFields s with
  | some why => cases (panelRun_of_rejected hg).symm.trans h; rfl
  | none => cases (panelRun_of_accepted hg rfl).symm.trans h; rfl

/-- Every instruction but RESET keeps `statusSeen`, or sets it for a status command (R29, R166). -/
theorem exec_statusSeen {i : Instr} {s t : State} (hi : i ≠ .reset) (h : exec i s = .next t) :
    StatusSeenKeptOrSet s t := by
  cases hk : transactionOf i with
  | none =>
    rcases exec_of_no_transaction hk s with ⟨code, tail, now, a, he⟩ | ⟨code, tail, now, rfl⟩ | ⟨w, now, he⟩
    · obtain ⟨u, hu, effect⟩ := panelRow_effect code tail now a s
      cases hu.symm.trans (he.symm.trans h)
      exact effect.statusSeen
    · exact .inl (execPRaw_statusSeen h)
    · obtain ⟨u, hu, effect⟩ := keypadRow_effect w now s
      cases hu.symm.trans ((keypadRow_eq w now s).trans (he.symm.trans h))
      exact effect.statusSeen (.inl rfl)
  | some k =>
    rcases transactionOf_eq_some hk with ⟨-, r, d, now, he⟩ | ⟨-, a, now, rfl⟩ | ⟨-, v, rfl⟩ | ⟨-, rfl⟩
    · cases (he s).symm.trans h
      exact .inl (edge_statusSeen r d now s)
    · exact execPoll_statusSeen h
    · cases h
      exact .inl rfl
    · exact absurd rfl hi

end Sys2Proof.Machine

open Sys2Proof Sys2Proof.Machine

/-- Settles O56: EDGE and POLL by what they write and leave; ARM writes one register, and RESET may write them all. -/
theorem registersAreWrittenByTheirOwners : Obligations.RegistersAreWrittenByTheirOwners := by
  intro i k s t hk h
  rcases transactionOf_eq_some hk with ⟨rfl, r, d, now, he⟩ | ⟨rfl, a, now, rfl⟩ | ⟨rfl, v, rfl⟩ | ⟨rfl, rfl⟩
  · cases (he s).symm.trans h
    exact ⟨by simp, fun _ => edge_bldP r d now s, nofun, by simp, fun _ => edge_keypadCapture r d now s, by simp,
      by simp, by simp, by simp, fun _ => edge_keeps_dropP, nofun, by simp, by simp, by simp, by simp, by simp⟩
  · obtain ⟨hbldK, hcmpK, hdropK, hedge, hinterval, harmed, -⟩ := pollFrame a now s t h
    have capture := execPoll_panelCapture h
    have dropP_clear : s.dropP = false → t.dropP = false := fun hd => by
      by_cases hp : PollPasses s
      · exact (capture.1 hp).2.2
      · exact (capture.2 hp).2.2.trans hd
    exact ⟨by simp, nofun, fun _ => capture, by simp [hbldK], nofun, by simp, by simp [hcmpK], by simp, by simp, nofun,
      fun _ => dropP_clear, by simp [hdropK], by simp [hedge, hinterval], by simp, by simp [harmed], by simp⟩
  · cases h
    simp
  · simp

/-- Settles O57: no instruction but RESET clears `statusSeen`, and what sets it is a committed status command. -/
theorem statusSeenIsClearedByResetOnly : Obligations.StatusSeenIsClearedByResetOnly := by
  refine fun i s t h => ⟨fun hs ht => ?_, fun hs ht => ?_⟩
  · by_contra hi
    rcases exec_statusSeen hi h with keep | ⟨set, -⟩
    · exact absurd (hs.symm.trans (keep.symm.trans ht)) (by decide)
    · exact absurd (set.symm.trans ht) (by decide)
  · have hi : i ≠ .reset := by
      rintro rfl
      cases h
      exact Bool.false_ne_true ht
    rcases exec_statusSeen hi h with keep | ⟨-, command⟩
    · exact absurd (hs.symm.trans (keep.symm.trans ht)) (by decide)
    · exact command

end

/-! # Requests and appends: the order of the input transactions (R58, R59) and the bounded sequences (R67) -/

section

namespace Sys2Proof.Machine

/-- A request that is made when `b` holds decodes to its instruction when `b` holds, and to nothing otherwise. -/
theorem map_decodeEvent_ite {b : Bool} {e : EventWord} {i : Instr} (h : decodeEvent e = .ok i) :
    (if b then [e] else []).map decodeEvent = if b = true then [Except.ok i] else [] := by
  cases b with
  | false => rfl
  | true => exact congrArg (fun x => [x]) h

/-- What the bounded append of `d` (R124) makes of a building sequence and its drop flag. -/
structure BoundedAppend (d : Bool) (old new : Bits) (flag : Bool) : Prop where
  keepsPrefix : old <+: new
  room : old.length < 200 → new = old ++ [d] ∧ new.length ≤ 200
  full : 200 ≤ old.length → new = old ∧ flag = true

theorem BoundedAppend.of_room {d flag : Bool} {old : Bits} (h : old.length < 200) :
    BoundedAppend d old (old ++ [d]) flag where
  keepsPrefix := List.prefix_append old [d]
  room _ := ⟨rfl, by rw [List.length_append, List.length_singleton]; omega⟩
  full hf := absurd h (Nat.not_lt.mpr hf)

theorem BoundedAppend.of_full {d : Bool} {old : Bits} (h : ¬ old.length < 200) : BoundedAppend d old old true where
  keepsPrefix := List.prefix_rfl
  room hl := absurd hl h
  full _ := ⟨rfl, rfl⟩

theorem appendBit_panel_bounded (d : Bool) (s : State) :
    BoundedAppend d s.bldP (appendBit .panel d s).bldP (appendBit .panel d s).dropP := by
  by_cases h : s.bldP.length < 200
  · rw [appendBit_panel_of_room h]
    exact .of_room h
  · rw [appendBit_panel_of_full h]
    exact .of_full h

theorem appendBit_keypad_bounded (d : Bool) (s : State) :
    BoundedAppend d s.bldK (appendBit .keypad d s).bldK (appendBit .keypad d s).dropK := by
  by_cases h : s.bldK.length < 200
  · rw [appendBit_keypad_of_room h]
    exact .of_room h
  · rw [appendBit_keypad_of_full h]
    exact .of_full h

end Sys2Proof.Machine

open Sys2Proof Sys2Proof.Machine

/-- Settles O16: each role's append is the bounded append of R124 on its own sequence and flag. -/
theorem appendsKeepEarlierBits : Obligations.AppendsKeepEarlierBits := by
  intro r d s
  cases r with
  | panel =>
    have h := appendBit_panel_bounded d s
    exact ⟨h.keepsPrefix, h.room, h.full⟩
  | keypad =>
    have h := appendBit_keypad_bounded d s
    exact ⟨h.keepsPrefix, h.room, h.full⟩

/-- Settles O5: under a well-formed configuration a step looks at the requests alone. -/
theorem stepRunsTheRequestedEvent : Obligations.StepRunsTheRequestedEvent :=
  fun _ hwf => ⟨fun _ _ _ hp hd => step_of_request hwf hp hd, fun hp => step_of_idle hwf hp⟩

/-- Settles O8: the requests decode one by one; the EDGE is a RISE, a FALL or absent as the clock says. -/
theorem simultaneousRequestsAreOrdered : Obligations.SimultaneousRequestsAreOrdered := by
  refine fun p s => ⟨State.acceptPorts_pending s p, ?_⟩
  rw [PortSample.requests, List.map_append, List.map_append, List.map_append, map_decodeEvent_ite (decodeEvent_reset 0),
    map_decodeEvent_ite (decodeEvent_arm p.armVal 0), map_decodeEvent_ite (decodeEvent_pollWord p.tsAck p.now)]
  cases p.clk with
  | none => simp
  | some lvl =>
    cases lvl with
    | false =>
      rw [List.map_singleton, decodeEvent_fall]
      simp
    | true =>
      rw [List.map_singleton, decodeEvent_rise]
      simp

end

/-! # Encodings: what decodes to what, and back (R70 to R79) -/

section

namespace Sys2Proof

open Machine

/-! ## Event words -/

/-- Two event words combine field by field. -/
theorem eventWord_and (kind kind' : BitVec 2) (lvl lvl' d d' : Bool) (now now' : Word) :
    eventWord kind lvl d now &&& eventWord kind' lvl' d' now' =
      eventWord (kind &&& kind') (lvl && lvl') (d && d') (now &&& now') := by
  apply BitVec.eq_of_getLsbD_eq
  intro i _
  simp only [BitVec.getLsbD_and, eventWord_getLsbD]
  split_ifs <;> rfl

/-! What the four masks leave of an event word. -/

theorem eventWord_and_all (kind : BitVec 2) (lvl d : Bool) (now : Word) :
    eventWord kind lvl d now &&& 0xFFFFFFFFF = eventWord kind lvl d now := BitVec.and_allOnes

theorem eventWord_and_withoutTime (kind : BitVec 2) (lvl d : Bool) (now : Word) :
    eventWord kind lvl d now &&& 0xF00000000 = eventWord kind lvl d 0 := by
  rw [show (0xF00000000 : EventWord) = eventWord (BitVec.allOnes 2) true true 0 by decide, eventWord_and,
    BitVec.and_allOnes]
  simp

theorem eventWord_and_withoutData (kind : BitVec 2) (lvl d : Bool) (now : Word) :
    eventWord kind lvl d now &&& 0xEFFFFFFFF = eventWord kind lvl false now := by
  rw [show (0xEFFFFFFFF : EventWord) = eventWord (BitVec.allOnes 2) true false (BitVec.allOnes 32) by decide,
    eventWord_and, BitVec.and_allOnes, BitVec.and_allOnes, Bool.and_true, Bool.and_false]

theorem eventWord_and_withoutBoth (kind : BitVec 2) (lvl d : Bool) (now : Word) :
    eventWord kind lvl d now &&& 0xE00000000 = eventWord kind lvl false 0 := by
  rw [show (0xE00000000 : EventWord) = eventWord (BitVec.allOnes 2) true false 0 by decide, eventWord_and,
    BitVec.and_allOnes]
  simp

/-- The higher bit of the kind. -/
theorem eventWord_getLsbD_35 (kind : BitVec 2) (lvl d : Bool) (now : Word) :
    (eventWord kind lvl d now).getLsbD 35 = kind.getLsbD 1 := by
  rw [eventWord_getLsbD]
  rfl

/-- The words that decode, each with its instruction: bits 31..0 of ARM and RESET may be any (R70, R71). -/
theorem decodeEvent_eq_ok {e : EventWord} {i : Instr} (h : decodeEvent e = .ok i) :
    (∃ d now, e = eventWord 0b00 true d now ∧ i = .rise d now) ∨
    (∃ d now, e = eventWord 0b00 false d now ∧ i = .fall d now) ∨
    (∃ a now, e = pollWord a now ∧ i = .poll a now) ∨
    (∃ v ignored, e = eventWord 0b10 false v ignored ∧ i = .arm v) ∨
    (∃ ignored, e = eventWord 0b11 false false ignored ∧ i = .reset) := by
  rw [← eventWord_of_fields e] at h ⊢
  generalize e.extractLsb' 34 2 = kind, e.getLsbD 33 = lvl, e.getLsbD 32 = d, e.extractLsb' 0 32 = now at h ⊢
  rw [decodeEvent_eventWord] at h
  split_ifs at h with h0 hl hl h1 h2 hd <;> injection h with h <;> subst h
  · exact .inl ⟨d, now, by rw [h0, hl], rfl⟩
  · exact .inr (.inl ⟨d, now, by rw [h0, eq_false_of_ne_true hl], rfl⟩)
  · exact .inr (.inr (.inl ⟨d, now, by rw [h1, eq_false_of_ne_true hl]; rfl, rfl⟩))
  · exact .inr (.inr (.inr (.inl ⟨d, now, by rw [h2, eq_false_of_ne_true hl], rfl⟩)))
  · have h3 : kind = 0b11 := by bv_omega
    exact .inr (.inr (.inr (.inr ⟨now, by rw [h3, eq_false_of_ne_true hl, eq_false_of_ne_true hd], rfl⟩)))

theorem decodeEvent_eq_poll {e : EventWord} {a : Bool} {now : Word} (h : decodeEvent e = .ok (.poll a now)) :
    e = pollWord a now := by
  rcases decodeEvent_eq_ok h with ⟨_, _, -, hi⟩ | ⟨_, _, -, hi⟩ | ⟨_, _, he, hi⟩ | ⟨_, _, -, hi⟩ | ⟨_, -, hi⟩
  case inr.inr.inl => cases hi; exact he
  all_goals cases hi

/-! ## Panel words -/

theorem decode_panelWord {tail : Bits} (hfit : tailFits tail = true) (c : Config) (code : Byte) (now : Word) (a : Bool) :
    decode c (panelWord code tail now a) = .ok (panelInstr code tail now a) := by
  have hlen : (byteBits code ++ tail).length ≤ maxBits := (Laws.EncodingFits.command_fits hfit).2
  simp only [panelWord, decode, decodeEvent_pollWord, hlen, decodePanel_command, ↓reduceIte]

/-- A panel word that decodes is a command byte and a tail, delivered by a POLL. -/
theorem decode_panel_eq_ok {c : Config} {p : EventWord} {w : Bits} {i : Instr} (h : decode c (.panel p w) = .ok i) :
    ∃ a now code tail, p = pollWord a now ∧ w = byteBits code ++ tail ∧ i = panelInstr code tail now a := by
  simp only [decode] at h
  split at h
  · next a now hp =>
    split at h
    · split at h
      · next hi =>
        cases h
        obtain ⟨code, tail, hw, rfl⟩ := decodePanel_eq_ok hi
        exact ⟨a, now, code, tail, decodeEvent_eq_poll hp, hw, rfl⟩
      · cases h
    · cases h
  · cases h
  · cases h

/-- The first test of PanelDecode (R160, R161). -/
theorem panelGate_duplicate {w : Bits} {s : State} (h : w = s.prvP) (code : Byte) (fs : List FieldSpec) :
    panelGate code w fs s = some .duplicate := by
  rw [panelGate, if_pos h]

/-- P_NULL has no time, and only P_DATETIME has TSYNC's answer. -/
theorem encode_panelInstr (c : Config) (code : Byte) (tail : Bits) (now : Word) (a : Bool) :
    encode c (panelInstr code tail now a) =
      panelWord code tail (if code = 0x00 then 0 else now) (if code = 0xa5 then a else false) := by
  refine panelCode_cases (P := fun code => encode c (panelInstr code tail now a) =
    panelWord code tail (if code = 0x00 then 0 else now) (if code = 0xa5 then a else false)) code
    rfl rfl rfl rfl rfl rfl rfl rfl rfl rfl rfl rfl rfl rfl rfl fun hraw => ?_
  have h0 : code ≠ 0x00 := fun h => hraw (by rw [h]; decide)
  have ha5 : code ≠ 0xa5 := fun h => hraw (by rw [h]; decide)
  rw [panelInstr_raw hraw, if_neg h0, if_neg ha5]
  rfl

/-! ## Keypad words -/

/-- A byte other than 0xff has a 0 among its bits. -/
theorem false_mem_byteBits {code : Byte} (h : code ≠ 0xff) : false ∈ byteBits code := by
  by_contra hn
  refine h (byteBits_injective ((List.eq_replicate_of_mem (a := true) fun b hb => ?_).trans rfl))
  exact eq_true_of_ne_false fun hb' => hn (hb' ▸ hb)

theorem decodeKeypad_noise {w : Bits} (hw : false ∉ w) (c : Config) (now : Word) :
    decodeKeypad c w now = .kNoise w.length := by
  have hz : ¬ hasZero w = true := fun h => hw (hasZero_eq_true.mp h)
  rw [decodeKeypad, keypadCase, if_neg hz]

theorem decodeKeypad_short {w : Bits} (hz : false ∈ w) (hl : w.length < 8) (c : Config) (now : Word) :
    decodeKeypad c w now = .kOther w now := by
  simp only [decodeKeypad, keypadCase, hasZero_eq_true.mpr hz, extract_of_short (show w.length < 0 + 8 from hl), ↓reduceIte]

/-- The row of a word with a 0 bit is the first of R79 whose condition its command byte meets. -/
theorem decodeKeypad_command {code : Byte} {tail : Bits} (hz : false ∈ byteBits code ++ tail) (c : Config) (now : Word) :
    decodeKeypad c (byteBits code ++ tail) now =
      if code = 0xff then .kButton tail now
      else if code = c.kpCodeFire then .kFire tail now
      else if code = c.kpCodeAux then .kAux tail now
      else if code = c.kpCodePanic then .kPanic tail now
      else .kOther (byteBits code ++ tail) now := by
  have hc : BitVec.ofNat 8 code.toNat = code := by simp
  simp only [decodeKeypad, keypadCase, hasZero_eq_true.mpr hz, extract_command, drop_command, hc, ↓reduceIte]

/-- A keypad word is noise, or shorter than its command byte, or a command byte and a tail. -/
theorem keypadWord_cases (w : Bits) :
    false ∉ w ∨ (false ∈ w ∧ w.length < 8) ∨ (false ∈ w ∧ ∃ code tail, w = byteBits code ++ tail) := by
  by_cases hz : false ∈ w
  · by_cases hl : w.length < 8
    · exact .inr (.inl ⟨hz, hl⟩)
    · exact .inr (.inr ⟨hz, _, _, word_split (Nat.le_of_not_lt hl)⟩)
  · exact .inl hz

/-- K_OTHER keeps its word: the word is short, or its command byte is none of the four above (R79). -/
theorem decodeKeypad_other {c : Config} {w : Bits} (hz : false ∈ w) (hother : keypadCodeIsOther c w = true) (now : Word) :
    decodeKeypad c w now = .kOther w now := by
  rcases keypadWord_cases w with hn | ⟨-, hl⟩ | ⟨-, code, tail, rfl⟩
  · exact absurd hz hn
  · exact decodeKeypad_short hz hl c now
  · simp only [keypadCodeIsOther, extract_command, BitVec.ofNat_toNat, BitVec.setWidth_eq, decide_eq_true_eq,
      List.mem_cons, List.not_mem_nil, or_false, not_or] at hother
    obtain ⟨hbutton, hfire, haux, hpanic⟩ := hother
    rw [decodeKeypad_command hz, if_neg hbutton, if_neg hfire, if_neg haux, if_neg hpanic]

theorem decode_keypadWord {w : Bits} (hfit : w.length ≤ maxBits) (c : Config) (now : Word) :
    decode c (keypadWord w now) = .ok (decodeKeypad c w now) := by
  simp only [keypadWord, decode, decodeEvent_pollWord, hfit, ↓reduceIte]

/-- A keypad word of a command byte with a 0 bit in it or after it, and a tail that fits. -/
theorem decode_keypadWord_command {code : Byte} {tail : Bits} (hfit : tailFits tail = true)
    (hz : false ∈ byteBits code ++ tail) (c : Config) (now : Word) :
    decode c (keypadWord (byteBits code ++ tail) now) = .ok (
      if code = 0xff then .kButton tail now
      else if code = c.kpCodeFire then .kFire tail now
      else if code = c.kpCodeAux then .kAux tail now
      else if code = c.kpCodePanic then .kPanic tail now
      else .kOther (byteBits code ++ tail) now) := by
  rw [decode_keypadWord (Laws.EncodingFits.command_fits hfit).2, decodeKeypad_command hz]

/-- A keypad word that decodes is delivered by a POLL. -/
theorem decode_keypad_eq_ok {c : Config} {p : EventWord} {w : Bits} {i : Instr} (h : decode c (.keypad p w) = .ok i) :
    ∃ a now, p = pollWord a now ∧ i = decodeKeypad c w now := by
  simp only [decode] at h
  split at h
  · next a now hp =>
    split at h
    · cases h
      exact ⟨a, now, decodeEvent_eq_poll hp, rfl⟩
    · cases h
  · cases h
  · cases h

/-- K_NOISE has no time. -/
theorem encode_decodeKeypad (c : Config) (w : Bits) (now : Word) :
    encode c (decodeKeypad c w now) = keypadWord w (if false ∈ w then now else 0) := by
  rcases keypadWord_cases w with hn | ⟨hz, hl⟩ | ⟨hz, code, tail, rfl⟩
  · have ones : List.replicate w.length true = w :=
      (List.eq_replicate_of_mem fun b hb => eq_true_of_ne_false fun hb' => hn (hb' ▸ hb)).symm
    rw [decodeKeypad_noise hn, if_neg hn, encode, ones]
  · rw [decodeKeypad_short hz hl, if_pos hz, encode]
  · rw [decodeKeypad_command hz, if_pos hz]
    split_ifs with h1 h2 h3 h4
    · rw [h1, encode]
    · rw [h2, encode]
    · rw [h3, encode]
    · rw [h4, encode]
    · rw [encode]

end Sys2Proof

open Sys2Proof Sys2Proof.Machine

/-- Settles O3, row by row: an event word has its fields, a panel word its command byte, and a keypad word, which has a
0 bit unless it is noise, a command byte that meets no earlier condition of R79. -/
theorem decodeOfEncodeIsTheInstruction : Obligations.DecodeOfEncodeIsTheInstruction := by
  intro c i hwf
  cases i with
  | rise d now => exact decodeEvent_rise d now
  | fall d now => exact decodeEvent_fall d now
  | poll a now => exact decodeEvent_pollWord a now
  | arm v => exact decodeEvent_arm v 0
  | reset => exact decodeEvent_reset 0
  | pNull tail => exact decode_panelWord hwf c 0x00 0 false
  | pStatus tail now => exact decode_panelWord hwf c 0x05 now false
  | pDatetime tail now a => exact decode_panelWord hwf c 0xa5 now a
  | pZoneA tail now => exact decode_panelWord hwf c 0x27 now false
  | pZoneB tail now => exact decode_panelWord hwf c 0x2d now false
  | pZoneC tail now => exact decode_panelWord hwf c 0x34 now false
  | pZoneD tail now => exact decode_panelWord hwf c 0x3e now false
  | pLabel11 tail now => exact decode_panelWord hwf c 0x11 now false
  | pLabel0A tail now => exact decode_panelWord hwf c 0x0a now false
  | pLabel5D tail now => exact decode_panelWord hwf c 0x5d now false
  | pLabel63 tail now => exact decode_panelWord hwf c 0x63 now false
  | pLabel64 tail now => exact decode_panelWord hwf c 0x64 now false
  | pLabel69 tail now => exact decode_panelWord hwf c 0x69 now false
  | pLabel39 tail now => exact decode_panelWord hwf c 0x39 now false
  | pLabelB1 tail now => exact decode_panelWord hwf c 0xb1 now false
  | pRaw code tail now =>
    obtain ⟨hfit, hraw⟩ := Bool.and_eq_true_iff.mp hwf
    exact (decode_panelWord hfit c code now false).trans
      (congrArg _ (panelInstr_raw (of_decide_eq_true hraw) tail now false))
  | kNoise n =>
    have hn : false ∉ List.replicate n true := by simp
    have hfit : (List.replicate n true).length ≤ maxBits := by simpa [Instr.wf] using hwf
    rw [encode, decode_keypadWord hfit, decodeKeypad_noise hn, List.length_replicate]
  | kButton tail now =>
    obtain ⟨hfit, hz⟩ := Bool.and_eq_true_iff.mp hwf
    rw [encode, decode_keypadWord_command hfit (List.mem_append_right _ (hasZero_eq_true.mp hz)), if_pos rfl]
  | kFire tail now =>
    obtain ⟨hfit, h⟩ := Bool.and_eq_true_iff.mp hwf
    have hbutton : c.kpCodeFire ≠ 0xff := of_decide_eq_true h
    rw [encode, decode_keypadWord_command hfit (List.mem_append_left _ (false_mem_byteBits hbutton)), if_neg hbutton,
      if_pos rfl]
  | kAux tail now =>
    obtain ⟨hfit, h⟩ := Bool.and_eq_true_iff.mp hwf
    obtain ⟨hbutton, hfire⟩ : c.kpCodeAux ≠ 0xff ∧ c.kpCodeAux ≠ c.kpCodeFire := by simpa using h
    rw [encode, decode_keypadWord_command hfit (List.mem_append_left _ (false_mem_byteBits hbutton)), if_neg hbutton,
      if_neg hfire, if_pos rfl]
  | kPanic tail now =>
    obtain ⟨hfit, h⟩ := Bool.and_eq_true_iff.mp hwf
    obtain ⟨hbutton, hfire, haux⟩ :
        c.kpCodePanic ≠ 0xff ∧ c.kpCodePanic ≠ c.kpCodeFire ∧ c.kpCodePanic ≠ c.kpCodeAux := by simpa using h
    rw [encode, decode_keypadWord_command hfit (List.mem_append_left _ (false_mem_byteBits hbutton)), if_neg hbutton,
      if_neg hfire, if_neg haux, if_pos rfl]
  | kOther w now =>
    obtain ⟨h, hother⟩ := Bool.and_eq_true_iff.mp hwf
    obtain ⟨hfit, hz⟩ := Bool.and_eq_true_iff.mp h
    rw [encode, decode_keypadWord (of_decide_eq_true hfit), decodeKeypad_other (hasZero_eq_true.mp hz) hother]

/-- Settles O1: the branches of R71 one by one; a reserved bit is an error under which the step refuses the word. -/
theorem eventWordsDecodeByKind : Obligations.EventWordsDecodeByKind := by
  intro e
  have word := eventWord_of_fields e
  generalize e.extractLsb' 34 2 = kind, e.getLsbD 33 = lvl, e.getLsbD 32 = d, e.extractLsb' 0 32 = now at word
  subst word
  refine ⟨?_, ?_, ?_, ?_, ?_, fun reserved => ?_⟩
  · rintro ⟨rfl, rfl⟩
    exact decodeEvent_rise d now
  · rintro ⟨rfl, rfl⟩
    exact decodeEvent_fall d now
  · rintro ⟨rfl, rfl⟩
    exact decodeEvent_pollWord d now
  · rintro ⟨rfl, rfl⟩
    exact decodeEvent_arm d now
  · rintro ⟨rfl, rfl, rfl⟩
    exact decodeEvent_reset now
  · have hd : decodeEvent (eventWord kind lvl d now) = .error (.reservedBit (eventWord kind lvl d now)) := by
      rw [decodeEvent_eventWord]
      rcases reserved with ⟨hk, rfl⟩ | ⟨rfl, rfl⟩
      · rw [if_neg hk, if_pos rfl]
      · cases lvl <;> rfl
    exact ⟨hd, fun s rest hwf hp => step_of_illFormed hwf hp hd⟩

/-- Settles O4: what decodes is known with its instruction, and the masks keep the fields that are its operands. -/
theorem encodeOfDecodeIsTheEncoding : Obligations.EncodeOfDecodeIsTheEncoding := by
  refine fun c i => ⟨fun e h => ?event, fun p w h => ?panel, fun p w h => ?keypad⟩
  case event =>
    rcases decodeEvent_eq_ok h with ⟨d, now, rfl, rfl⟩ | ⟨d, now, rfl, rfl⟩ | ⟨a, now, rfl, rfl⟩ | ⟨v, ignored, rfl, rfl⟩ |
      ⟨ignored, rfl, rfl⟩
    · rw [if_neg (by rw [eventWord_getLsbD_35]; decide), encode]
    · rw [if_neg (by rw [eventWord_getLsbD_35]; decide), encode]
    · rw [if_neg (by rw [pollWord, eventWord_getLsbD_35]; decide), encode]
    · rw [if_pos (by rw [eventWord_getLsbD_35]; decide), encode, eventWord_and_withoutTime]
    · rw [if_pos (by rw [eventWord_getLsbD_35]; decide), encode, eventWord_and_withoutTime]
  case panel =>
    obtain ⟨a, now, code, tail, rfl, rfl, rfl⟩ := decode_panel_eq_ok h
    have hcode (b : Byte) : byteBits code = byteBits b ↔ code = b := ⟨byteBits_injective, congrArg _⟩
    simp only [encode_panelInstr, take_command, panelWord, hcode, pollWord]
    split_ifs with ha5 h0 h0
    · exact absurd (ha5.symm.trans h0) (by decide)
    · rw [eventWord_and_all]
    · rw [eventWord_and_withoutBoth]
    · rw [eventWord_and_withoutData]
  case keypad =>
    obtain ⟨a, now, rfl, rfl⟩ := decode_keypad_eq_ok h
    rw [encode_decodeKeypad, keypadWord, pollWord, pollWord]
    split_ifs with hz
    · rw [eventWord_and_withoutData]
    · rw [eventWord_and_withoutBoth]

/-- Settles O24: a command byte and a tail decode to the row of the byte, and the first test of every row is the one for
duplicates (R160). -/
theorem panelCodesSelectTheirRows : Obligations.PanelCodesSelectTheirRows := by
  intro tail now a
  refine ⟨decodePanel_command .., decodePanel_command .., decodePanel_command .., decodePanel_command ..,
    decodePanel_command .., decodePanel_command .., decodePanel_command .., decodePanel_command ..,
    decodePanel_command .., decodePanel_command .., decodePanel_command .., decodePanel_command ..,
    decodePanel_command .., decodePanel_command .., decodePanel_command .., fun code hraw => ?_, fun code i s hrow hdup => ?_⟩
  · exact (decodePanel_command code tail now a).trans (congrArg _ (panelInstr_raw hraw tail now a))
  · rw [exec_of_decodePanel hrow, panelRow_command, panelRun_of_rejected (panelGate_duplicate hdup _ _)]
    rfl

/-- Settles O36: the conditions of R79 in their order. -/
theorem keypadCodesSelectTheirRows : Obligations.KeypadCodesSelectTheirRows := by
  refine fun c now => ⟨fun code tail hz => ?_, fun w hz hl => decodeKeypad_short hz hl c now⟩
  intro row
  have hrow : row = _ := decodeKeypad_command hz c now
  simp only [List.mem_cons, List.not_mem_nil, or_false, not_or]
  refine ⟨fun hbutton => ?_, fun hbutton hfire => ?_, fun ⟨hbutton, hfire⟩ haux => ?_,
    fun ⟨hbutton, hfire, haux⟩ hpanic => ?_, fun ⟨hbutton, hfire, haux, hpanic⟩ => ?_⟩
  · rw [hrow, if_pos hbutton]
  · rw [hrow, if_neg hbutton, if_pos hfire]
  · rw [hrow, if_neg hbutton, if_neg hfire, if_pos haux]
  · rw [hrow, if_neg hbutton, if_neg hfire, if_neg haux, if_pos hpanic]
  · rw [hrow, if_neg hbutton, if_neg hfire, if_neg haux, if_neg hpanic]

/-- Settles O37: the noise test comes first, in the decoder (R79) and in the row (R200). -/
theorem noiseWordsAreRejected : Obligations.NoiseWordsAreRejected :=
  fun n s => ⟨keypadRun_noise (w := List.replicate n true) (by simp) 0 s, fun c _ now hw => decodeKeypad_noise hw c now⟩

/-- Settles O2: the fixed words, evaluated. -/
theorem specWordsDecodeToTheirInstructions : Obligations.SpecWordsDecodeToTheirInstructions := by
  refine ⟨?_, ?_, ?_, ?_, ?_, ?_, ?_, ?_, ?_, ?_, ?_, ?_, ?_, ?_, ?_, ?_⟩ <;> rfl

/-- Settles O48: the fixed bytes are looked up before the entries of the configuration (R85). -/
theorem buttonTableKeepsItsFixedEntries : Obligations.ButtonTableKeepsItsFixedEntries :=
  fun _ => ⟨rfl, rfl, rfl, rfl⟩

end

/-! # A BITS line, and the word it frames (R72, R121, R143, R255) -/

section

namespace Sys2Proof.Machine

/-! ## Runs -/

theorem run_succ_of_step {s t : State} (h : step s = .next t) (n : Nat) :
    Host.Core.run core (n + 1) s = Host.Core.run core n t := by
  have h' : core.step s = .next t := h
  simp only [Host.Core.run, h']

/-- A run is its first steps and then the others. -/
theorem run_add {m : Nat} {s t : State} (h : Host.Core.run core m s = .next t) (n : Nat) :
    Host.Core.run core (m + n) s = Host.Core.run core n t := by
  induction m generalizing s with
  | zero =>
    cases h
    rw [Nat.zero_add]
  | succ m ih =>
    cases hs : step s with
    | next u =>
      rw [run_succ_of_step hs] at h
      rw [Nat.succ_add, run_succ_of_step hs, ih h]
    | fault r =>
      have hs' : core.step s = .fault r := hs
      simp only [Host.Core.run, hs', reduceCtorEq] at h
    | refused r =>
      have hs' : core.step s = .refused r := hs
      simp only [Host.Core.run, hs', reduceCtorEq] at h

/-! ## The bits of several edges -/

/-- The bits `xs` appended one by one to `old` (R124): those beyond the capacity are dropped. -/
def appended (old xs : Bits) : Bits := (old ++ xs).take 200

/-- The drop flag after it. -/
def appendedFlag (flag : Bool) (old xs : Bits) : Bool := flag || decide (200 < old.length + xs.length)

theorem appended_appended (old xs ys : Bits) : appended (appended old xs) ys = appended old (xs ++ ys) := by
  rw [appended, appended, appended, ← List.append_assoc, List.take_append, List.take_append (l₁ := old ++ xs),
    List.take_take, List.length_take]
  rcases Nat.le_total (old ++ xs).length 200 with h | h
  · rw [Nat.min_eq_right h, Nat.min_self]
  · rw [Nat.min_eq_left h, Nat.min_self, Nat.sub_self, Nat.sub_eq_zero_of_le h]

theorem appendedFlag_appended (flag : Bool) (old xs ys : Bits) :
    appendedFlag (appendedFlag flag old xs) (appended old xs) ys = appendedFlag flag old (xs ++ ys) := by
  rw [appendedFlag, appendedFlag, appendedFlag, appended, Bool.or_assoc, List.length_take, List.length_append,
    List.length_append, ← Bool.decide_or]
  exact congrArg (flag || ·) (decide_eq_decide.mpr (by omega))

theorem appended_length_le (old xs : Bits) : (appended old xs).length ≤ 200 := List.length_take_le ..

/-- Panel bits `p` and keypad bits `k` appended. -/
def appendBits (p k : Bits) (s : State) : State :=
  { s with
    bldP := appended s.bldP p
    dropP := appendedFlag s.dropP s.bldP p
    bldK := appended s.bldK k
    dropK := appendedFlag s.dropK s.bldK k }

theorem appendBits_appendBits (p p' k k' : Bits) (s : State) :
    appendBits p' k' (appendBits p k s) = appendBits (p ++ p') (k ++ k') s := by
  simp only [appendBits, appended_appended, appendedFlag_appended]

/-- One keypad bit and then one panel bit. -/
theorem appendBit_panel_appendBit_keypad {p k : Bool} {s : State} (hP : s.bldP.length ≤ 200) (hK : s.bldK.length ≤ 200) :
    appendBit .panel p (appendBit .keypad k s) = appendBits [p] [k] s := by
  have hP' : (appendBit .keypad k s).bldP.length ≤ 200 := by rwa [appendBit_keypad_bldP]
  rw [appendBit_panel_eq_take hP', appendBit_keypad_eq_take hK]
  rfl

/-! ## The steps of an armed edge -/

/-- What an edge without a gap writes: the requests that follow it, its time and its interval (R120). -/
def stampEdge (es : List EventWord) (now interval : Word) (s : State) : State :=
  { s with pending := es, lastEdgeTs := now, edgeInterval := interval }

theorem appendBit_stampEdge (r : Role) (d : Bool) (es : List EventWord) (now interval : Word) (s : State) :
    appendBit r d (stampEdge es now interval s) = stampEdge es now interval (appendBit r d s) := by
  cases r with
  | panel => exact (apply_ite (stampEdge es now interval) (s.bldP.length < maxBits)
      { s with bldP := s.bldP ++ [d] } { s with dropP := true }).symm
  | keypad => exact (apply_ite (stampEdge es now interval) (s.bldK.length < maxBits)
      { s with bldK := s.bldK ++ [d] } { s with dropK := true }).symm

theorem stampEdge_appendBits_stampEdge (es es' : List EventWord) (now now' interval interval' : Word) (p k : Bits)
    (s : State) :
    stampEdge es now interval (appendBits p k (stampEdge es' now' interval' s)) =
      stampEdge es now interval (appendBits p k s) := rfl

/-- The timing of an edge reads no requests. -/
theorem edgeTiming_withPending (now : Word) (es : List EventWord) (s : State) :
    edgeTiming now { s with pending := es } = stampEdge es now (now - s.lastEdgeTs) (edgeTiming now s) := by
  by_cases hg : GapAt now s
  · rw [edgeTiming_of_gap hg]
    exact edgeTiming_of_gap (s := { s with pending := es }) hg
  · rw [edgeTiming_of_no_gap hg]
    exact edgeTiming_of_no_gap (s := { s with pending := es }) hg

theorem edge_withPending {s : State} (harmed : s.captureArmed = true) (r : Role) (d : Bool) (now : Word)
    (es : List EventWord) :
    edge r d now { s with pending := es } =
      stampEdge es now (now - s.lastEdgeTs) (appendBit r d (edgeTiming now s)) := by
  rw [← appendBit_stampEdge, ← edgeTiming_withPending]
  exact edge_armed harmed

theorem step_of_fall {s : State} {d : Bool} {now : Word} {es : List EventWord} (hwf : s.cfg.wf = true)
    (harmed : s.captureArmed = true) (hp : s.pending = eventWord 0b00 false d now :: es) :
    step s = .next (stampEdge es now (now - s.lastEdgeTs) (appendBit .keypad d (edgeTiming now s))) := by
  rw [step_of_request hwf hp (decodeEvent_fall d now), ← edge_withPending harmed]
  rfl

theorem step_of_rise {s : State} {d : Bool} {now : Word} {es : List EventWord} (hwf : s.cfg.wf = true)
    (harmed : s.captureArmed = true) (hp : s.pending = eventWord 0b00 true d now :: es) :
    step s = .next (stampEdge es now (now - s.lastEdgeTs) (appendBit .panel d (edgeTiming now s))) := by
  rw [step_of_request hwf hp (decodeEvent_rise d now), ← edge_withPending harmed]
  rfl

/-! ## The edges of a BITS line -/

theorem ofNat_add_sub (t h : Nat) : BitVec.ofNat 32 (t + h) - BitVec.ofNat 32 t = BitVec.ofNat 32 h := by
  rw [BitVec.ofNat_add, BitVec.add_comm, BitVec.add_sub_cancel]

/-- An edge `h` after the last one, with `h` at most the capture threshold, ends no gap. -/
theorem edgeTiming_of_spacing {t h : Nat} {s : State} (hh : h ≤ s.cfg.tBoundary - s.cfg.mCapture)
    (hlast : s.lastEdgeTs = BitVec.ofNat 32 t) :
    edgeTiming (BitVec.ofNat 32 (t + h)) s =
      stampEdge s.pending (BitVec.ofNat 32 (t + h)) (BitVec.ofNat 32 h) s := by
  have noGap : ¬ GapAt (BitVec.ofNat 32 (t + h)) s := by
    rw [GapAt, hlast, ofNat_add_sub, BitVec.toNat_ofNat, Nat.not_lt]
    exact (Nat.mod_le _ _).trans hh
  rw [edgeTiming_of_no_gap noGap, hlast, ofNat_add_sub]
  rfl

/-- What a BITS line finds in `bld[K]`: the gap that its first FALL may end has emptied it. -/
theorem edgeTiming_bldK_ite (now : Word) (s : State) :
    (edgeTiming now s).bldK = if GapAt now s then [] else s.bldK := by
  by_cases hg : GapAt now s
  · rw [if_pos hg, edgeTiming_of_gap hg]
  · rw [if_neg hg, edgeTiming_of_no_gap hg]

/-- What a BITS line of spacing `h` needs of the state in which it begins; the bounds are invariants (R45). -/
structure ReadyForBits (h : Nat) (s : State) : Prop where
  wf : s.cfg.wf = true
  armed : s.captureArmed = true
  bldP_fits : s.bldP.length ≤ 200
  bldK_fits : s.bldK.length ≤ 200
  spacing : h < s.cfg.tBoundary - s.cfg.mCapture

theorem ReadyForBits.edgeTiming {h : Nat} {s : State} (hs : ReadyForBits h s) (now : Word) :
    ReadyForBits h (edgeTiming now s) where
  wf := by simpa using hs.wf
  armed := by simpa using hs.armed
  bldP_fits := by simpa using hs.bldP_fits
  bldK_fits := by
    rw [edgeTiming_bldK]
    split
    · exact Nat.zero_le _
    · exact hs.bldK_fits
  spacing := by simpa using hs.spacing

theorem ReadyForBits.appendBits {h : Nat} {s : State} (hs : ReadyForBits h s) (p k : Bits) :
    ReadyForBits h (appendBits p k s) :=
  { hs with bldP_fits := appended_length_le .., bldK_fits := appended_length_le .. }

theorem ReadyForBits.stampEdge {h : Nat} {s : State} (hs : ReadyForBits h s) (es : List EventWord) (now interval : Word) :
    ReadyForBits h (stampEdge es now interval s) := { hs with }

theorem ReadyForBits.appendBit_keypad {h : Nat} {s : State} (hs : ReadyForBits h s) (d : Bool) :
    ReadyForBits h (appendBit .keypad d s) := by
  rw [appendBit_keypad_eq_take hs.bldK_fits]
  exact { hs with bldK_fits := List.length_take_le .. }

/-- The RISE of a BITS line, `h` after its FALL, appends its bit and promotes nothing. -/
theorem step_of_spaced_rise {s : State} {t h : Nat} {d : Bool} {es : List EventWord} (hs : ReadyForBits h s)
    (hlast : s.lastEdgeTs = BitVec.ofNat 32 t) (hp : s.pending = eventWord 0b00 true d (BitVec.ofNat 32 (t + h)) :: es) :
    step s = .next (stampEdge es (BitVec.ofNat 32 (t + h)) (BitVec.ofNat 32 h) (appendBit .panel d s)) := by
  rw [step_of_rise hs.wf hs.armed hp, edgeTiming_of_spacing hs.spacing.le hlast, appendBit_stampEdge, hlast, ofNat_add_sub]
  rfl

/-- The pair of edges that sends one panel bit and one keypad bit: the FALL may end a gap, and the RISE ends none. -/
theorem run_bitPair {s : State} {h t : Nat} {p k : Bool} {rest : List EventWord} (hs : ReadyForBits h s)
    (hp : s.pending = eventWord 0b00 false k (BitVec.ofNat 32 t) :: eventWord 0b00 true p (BitVec.ofNat 32 (t + h)) :: rest)
    (n : Nat) :
    Host.Core.run core (n + 2) s = Host.Core.run core n
      (stampEdge rest (BitVec.ofNat 32 (t + h)) (BitVec.ofNat 32 h)
        (appendBits [p] [k] (edgeTiming (BitVec.ofNat 32 t) s))) := by
  have timed := hs.edgeTiming (BitVec.ofNat 32 t)
  have fall := step_of_fall hs.wf hs.armed hp
  have rise := step_of_spaced_rise (t := t) (d := p) (es := rest) ((timed.appendBit_keypad k).stampEdge
    (eventWord 0b00 true p (BitVec.ofNat 32 (t + h)) :: rest) (BitVec.ofNat 32 t) (BitVec.ofNat 32 t - s.lastEdgeTs)) rfl rfl
  rw [appendBit_stampEdge, appendBit_panel_appendBit_keypad timed.bldP_fits timed.bldK_fits] at rise
  exact (run_succ_of_step fall (n + 1)).trans (run_succ_of_step rise n)

/-- A BITS line: its first FALL may end a gap, and no later edge does, each coming `h` after the one before it. -/
theorem run_bitsEvents {h t : Nat} {p k : Bool} {pairs : List (Bool × Bool)} {rest : List EventWord} {s : State}
    (hs : ReadyForBits h s) (hp : s.pending = bitsEvents h t ((p, k) :: pairs) ++ rest) :
    Host.Core.run core (2 * (pairs.length + 1)) s =
      .next (stampEdge rest (BitVec.ofNat 32 (t + (2 * pairs.length + 1) * h)) (BitVec.ofNat 32 h)
        (appendBits (p :: pairs.map Prod.fst) (k :: pairs.map Prod.snd) (edgeTiming (BitVec.ofNat 32 t) s))) := by
  induction pairs generalizing t p k s with
  | nil =>
    have time : t + (2 * ([] : List (Bool × Bool)).length + 1) * h = t + h := by simp
    rw [time]
    exact run_bitPair hs hp 0
  | cons pair pairs ih =>
    obtain ⟨p', k'⟩ := pair
    have time : t + (2 * ((p', k') :: pairs).length + 1) * h = t + 2 * h + (2 * pairs.length + 1) * h := by
      rw [List.length_cons]
      ring
    have ready := ((hs.edgeTiming (BitVec.ofNat 32 t)).appendBits [p] [k]).stampEdge
      (bitsEvents h (t + 2 * h) ((p', k') :: pairs) ++ rest) (BitVec.ofNat 32 (t + h)) (BitVec.ofNat 32 h)
    have spaced := edgeTiming_of_spacing ready.spacing.le (t := t + h) rfl
    rw [show t + h + h = t + 2 * h by omega] at spaced
    have others := ih ready rfl
    rw [spaced, stampEdge_appendBits_stampEdge, stampEdge_appendBits_stampEdge, appendBits_appendBits, ← time] at others
    exact (run_bitPair hs hp _).trans others

/-- The same, from the two strings of the line (R72). -/
theorem run_bitsLine {h t : Nat} {p k : Bits} {rest : List EventWord} {s : State} (hlen : p.length = k.length)
    (hpos : 0 < p.length) (hs : ReadyForBits h s) (hp : s.pending = bitsEvents h t (p.zip k) ++ rest) :
    Host.Core.run core (2 * p.length) s =
      .next (stampEdge rest (BitVec.ofNat 32 (t + (2 * p.length - 1) * h)) (BitVec.ofNat 32 h)
        (appendBits p k (edgeTiming (BitVec.ofNat 32 t) s))) := by
  match p, k, hpos with
  | p₀ :: p, k₀ :: k, _ =>
    have hlen' : p.length = k.length := Nat.succ.inj hlen
    have run := run_bitsEvents (pairs := p.zip k) hs hp
    rwa [List.map_fst_zip hlen'.le, List.map_snd_zip hlen'.ge, List.length_zip, ← hlen', Nat.min_self] at run

/-! ## The gap and the POLL that frame a word -/

/-- A FALL after a gap completes the keypad word, and its bit begins the next one (R121, R123). -/
theorem step_of_gapFall {s : State} {d : Bool} {now : Word} {es : List EventWord} (hwf : s.cfg.wf = true)
    (harmed : s.captureArmed = true) (hgap : GapAt now s) (hp : s.pending = eventWord 0b00 false d now :: es) :
    step s = .next (stampEdge es now (now - s.lastEdgeTs) { s with cmpK := s.bldK, bldK := [d], dropK := false }) := by
  rw [step_of_fall hwf harmed hp, edgeTiming_of_gap hgap, appendBit_keypad_of_room (by simp)]
  rfl

/-- On a guard pass both decoders report (R183, R209). -/
theorem execPoll_reports {a : Bool} {now : Word} {s t : State} (hpass : PollPasses s) (h : execPoll a now s = .next t) :
    t.dstatP ≠ .none ∧ t.dstatK ≠ .none := by
  rcases execPoll_cases a now s with ⟨hg, -⟩ | ⟨-, code, p, k, -, hp, hk, he⟩
  · exact absurd (pollPasses_iff.mp hpass) hg
  · cases he.symm.trans h
    have panel : p.dstatP ≠ .none := fun hn => by
      rcases hp.verdict with ⟨hv, -⟩ | ⟨hv, -⟩
      · exact absurd (hn ▸ hv) (by decide)
      · exact absurd (hn ▸ hv) (by decide)
    have keypad : k.dstatK ≠ .none := fun hn => by
      rcases hk.verdict with ⟨hv, -⟩ | ⟨hv, -⟩
      · exact absurd (hn ▸ hv) (by decide)
      · exact absurd (hn ▸ hv) (by decide)
    have kept : k.dstatP = p.dstatP := by rw [hk.frame]
    exact ⟨fun hn => panel (kept.symm.trans hn), keypad⟩

/-- A POLL that passes its guard completes the panel word, leaves the keypad role, and runs both decoders. -/
theorem step_of_passing_poll {s : State} {a : Bool} {now : Word} {rest : List EventWord} (hwf : s.cfg.wf = true)
    (hpass : PollPasses s) (hp : s.pending = pollWord a now :: rest) :
    ∃ t, step s = .next t ∧ t.cmpP = s.bldP ∧ t.bldP = [] ∧ t.cmpK = s.cmpK ∧ t.bldK = s.bldK ∧ t.pending = rest ∧
      t.dstatP ≠ .none ∧ t.dstatK ≠ .none := by
  have hd := decodeEvent_pollWord a now
  obtain ⟨t, ht⟩ := exec_decodeEvent_next hd { s with pending := rest }
  obtain ⟨hbldK, hcmpK, -, -, -, -, -, -, hpending⟩ := pollFrame a now _ t ht
  have passes : PollPasses { s with pending := rest } := hpass
  obtain ⟨hbldP, hcmpP, -⟩ := (execPoll_panelCapture ht).1 passes
  exact ⟨t, (step_of_request hwf hp hd).trans ht, hcmpP, hbldP, hcmpK, hbldK, hpending, execPoll_reports passes ht⟩

/-- The FALL that ends the gap and the POLL after it complete both words, and both decoders run. -/
theorem run_gapFall_poll {s : State} {d a : Bool} {t1 t2 : Word} {rest : List EventWord} (hwf : s.cfg.wf = true)
    (harmed : s.captureArmed = true) (hgap : s.cfg.tBoundary + s.cfg.mFramer < (t1 - s.lastEdgeTs).toNat)
    (hlong : 8 ≤ s.bldP.length) (hp : s.pending = eventWord 0b00 false d t1 :: pollWord a t2 :: rest) :
    ∃ t, Host.Core.run core 2 s = .next t ∧ t.cmpP = s.bldP ∧ t.bldP = [] ∧ t.cmpK = s.bldK ∧ t.bldK = [d] ∧
      t.pending = rest ∧ t.dstatP ≠ .none ∧ t.dstatK ≠ .none := by
  have fall := step_of_gapFall hwf harmed (show GapAt t1 s by rw [GapAt]; omega) hp
  obtain ⟨t, poll, framed⟩ := step_of_passing_poll (s := stampEdge (pollWord a t2 :: rest) t1 (t1 - s.lastEdgeTs)
    { s with cmpK := s.bldK, bldK := [d], dropK := false }) hwf ⟨hgap, hlong⟩ rfl
  exact ⟨t, (run_succ_of_step fall 1).trans (run_succ_of_step poll 0), framed⟩

end Sys2Proof.Machine

open Sys2Proof Sys2Proof.Machine

/-- Settles O59: the first FALL promotes `bld[K]` if it ends a gap, and then the line's bits are appended, pair by pair. -/
theorem bitsFrameNothingInside : Obligations.BitsFrameNothingInside := by
  intro s p k t0 h rest hwf harmed hP hK hlen hpos hh hp
  refine (run_bitsLine hlen hpos ⟨hwf, harmed, hP, hK, hh⟩ hp).trans (congrArg _ ?_)
  by_cases hg : GapAt (BitVec.ofNat 32 t0) s
  · simp only [edgeTiming_of_gap hg, if_pos hg, decide_eq_true hg]
    rfl
  · simp only [edgeTiming_of_no_gap hg, if_neg hg, decide_eq_false hg]
    rfl

/-- Settles O60: the line's bits stand in `bld` when the FALL and the POLL complete the two words. -/
theorem wordsAreFramedExactly : Obligations.WordsAreFramedExactly := by
  intro s p k t0 h d a t1 t2 rest hwf harmed hP hK hlen hpos hlong hh hgap hp bldK0
  have hs : ReadyForBits h s := ⟨hwf, harmed, hP, hK, hh⟩
  rw [List.append_assoc] at hp
  have line := run_bitsLine hlen hpos hs hp
  have ready := (hs.edgeTiming (BitVec.ofNat 32 t0)).appendBits p k
  have sent : appended (edgeTiming (BitVec.ofNat 32 t0) s).bldP p = (s.bldP ++ p).take 200 := by
    rw [edgeTiming_bldP, appended]
  have heard : appended (edgeTiming (BitVec.ofNat 32 t0) s).bldK k = (bldK0 ++ k).take 200 := by
    rw [edgeTiming_bldK_ite, appended]
  have gap : (edgeTiming (BitVec.ofNat 32 t0) s).cfg.tBoundary + (edgeTiming (BitVec.ofNat 32 t0) s).cfg.mFramer <
      (t1 - BitVec.ofNat 32 (t0 + (2 * p.length - 1) * h)).toNat := by rwa [edgeTiming_cfg]
  have long : 8 ≤ (appended (edgeTiming (BitVec.ofNat 32 t0) s).bldP p).length := by
    rw [sent, List.length_take, List.length_append]
    omega
  obtain ⟨t, ht, hcmpP, hbldP, hcmpK, hrest⟩ := run_gapFall_poll (s := stampEdge _ (BitVec.ofNat 32 _) (BitVec.ofNat 32 h)
    (appendBits p k (edgeTiming (BitVec.ofNat 32 t0) s))) ready.wf ready.armed gap long rfl
  have word : t.cmpP = (s.bldP ++ p).take 200 := hcmpP.trans sent
  refine ⟨t, (run_add line 2).trans ht, word, fun hempty hfits => ?_, hbldP, hcmpK.trans heard, hrest⟩
  rw [word, hempty, List.nil_append, List.take_of_length_le hfits]

end

/-! # The digits of a field (R101), and the checksum over whole bytes (R103, R104) -/

section

namespace Sys2Proof.Machine

/-- Digit `j` of a field in range, counted from the most significant one, is the word's bit `j` places into the field. -/
theorem fieldAt_testBit {w : Bits} {off k j : Nat} (h : off + k ≤ w.length) (hj : j < k) :
    (fieldAt w off k).testBit (k - 1 - j) = w.getD (off + j) false := by
  have hl : ((w.drop off).take k).length = k := by
    rw [List.length_take, List.length_drop, Nat.min_eq_left (by omega)]
  calc (fieldAt w off k).testBit (k - 1 - j)
    _ = ((w.drop off).take k).reverse.getD (k - 1 - j) false := fieldValue_testBit ..
    _ = ((w.drop off).take k).getD j false := by
      rw [List.getD_reverse _ (by omega), hl, show k - 1 - (k - 1 - j) = j by omega]
    _ = w.getD (off + j) false := by
      rw [List.getD_eq_getElem?_getD, List.getElem?_take_of_lt hj, List.getElem?_drop, ← List.getD_eq_getElem?_getD]

@[simp] theorem length_flatMap_byteBits (bytes : List Byte) : (bytes.flatMap byteBits).length = 8 * bytes.length := by
  simp [List.length_flatMap, Nat.mul_comm]

/-- A field behind a prefix is the field of the rest. -/
theorem fieldAt_add_length (front w : Bits) (off k : Nat) : fieldAt (front ++ w) (front.length + off) k = fieldAt w off k := by
  rw [fieldAt, List.drop_append, fieldAt, List.drop_of_length_le (by omega), List.nil_append, Nat.add_sub_cancel_left]

/-- Byte `i` of a word of whole bytes and trailing bits stands at offset `8 * i`. -/
theorem fieldAt_flatMap_byteBits {bytes : List Byte} {i : Nat} (hi : i < bytes.length) (trailing : Bits) :
    fieldAt (bytes.flatMap byteBits ++ trailing) (8 * i) 8 = bytes[i].toNat := by
  induction bytes generalizing i with
  | nil => simp at hi
  | cons b bytes ih =>
    rw [List.flatMap_cons, List.append_assoc]
    cases i with
    | zero => rw [Nat.mul_zero, fieldAt, List.drop_zero, take_command, fieldValue_byteBits, List.getElem_cons_zero]
    | succ i =>
      rw [show 8 * (i + 1) = (byteBits b).length + 8 * i by rw [byteBits_length]; omega, fieldAt_add_length,
        ih (Nat.lt_of_succ_lt_succ hi), List.getElem_cons_succ]

/-- A word of fewer than 16 bits has no full group after its header, or no header at all (R103). -/
theorem validate_of_short {w : Bits} (h : w.length < 16) : validate 8 w = false := by
  have hn : checksumGroups 8 w < 1 := by rw [checksumGroups]; omega
  rw [validate, if_pos hn, ite_self]

/-- From 16 bits on, the sum over the groups before the last one is compared with the last one. -/
theorem validate_of_long {w : Bits} (h : 16 ≤ w.length) : validate 8 w =
    (checksumSum 8 w (checksumGroups 8 w - 1) % 256 == checksumGroup 8 w (checksumGroups 8 w - 1)) := by
  have hn : ¬ checksumGroups 8 w < 1 := by rw [checksumGroups]; omega
  rw [validate, if_neg (by omega), if_neg hn]

/-- The groups are the bytes after the header; trailing bits that fill no byte are no group (R104). -/
theorem checksumGroups_bytes (h : Byte) (bytes : List Byte) {trailing : Bits} (ht : trailing.length < 8) :
    checksumGroups 8 ((h :: bytes).flatMap byteBits ++ trailing) = bytes.length := by
  rw [checksumGroups, List.length_append, length_flatMap_byteBits, List.length_cons]
  omega

theorem checksumGroup_bytes (h : Byte) {bytes : List Byte} (trailing : Bits) {i : Nat} (hi : i < bytes.length) :
    checksumGroup 8 ((h :: bytes).flatMap byteBits ++ trailing) i = bytes[i].toNat := by
  rw [checksumGroup, show 8 + 8 * i = 8 * (i + 1) by omega,
    fieldAt_flatMap_byteBits (bytes := h :: bytes) (Nat.succ_lt_succ hi), List.getElem_cons_succ]

/-- The sum over the first groups is the header plus the data, whatever bytes follow them. -/
theorem checksumSum_bytes (h : Byte) (data rest : List Byte) (trailing : Bits) :
    checksumSum 8 ((h :: (data ++ rest)).flatMap byteBits ++ trailing) data.length =
      h.toNat + (data.map BitVec.toNat).sum := by
  have header : fieldAt ((h :: (data ++ rest)).flatMap byteBits ++ trailing) 0 8 = h.toNat :=
    fieldAt_flatMap_byteBits (bytes := h :: (data ++ rest)) (i := 0) (Nat.succ_pos _) trailing
  have groups : (List.range data.length).map (checksumGroup 8 ((h :: (data ++ rest)).flatMap byteBits ++ trailing)) =
      data.map BitVec.toNat := by
    refine List.ext_getElem (by simp) fun i _ hi => ?_
    have hi : i < data.length := by simpa using hi
    rw [List.getElem_map, List.getElem_map, List.getElem_range,
      checksumGroup_bytes h trailing (by rw [List.length_append]; omega), List.getElem_append_left hi]
  rw [checksumSum, header, groups]

/-- The checksum rule on a word given by its bytes. -/
theorem validate_bytes (h : Byte) (data : List Byte) (ck : Byte) {trailing : Bits} (ht : trailing.length < 8) :
    validate 8 ((h :: (data ++ [ck])).flatMap byteBits ++ trailing) =
      decide ((h.toNat + (data.map BitVec.toNat).sum) % 256 = ck.toNat) := by
  have long : 16 ≤ ((h :: (data ++ [ck])).flatMap byteBits ++ trailing).length := by
    rw [List.length_append, length_flatMap_byteBits, List.length_cons, List.length_append, List.length_singleton]
    omega
  have last : checksumGroups 8 ((h :: (data ++ [ck])).flatMap byteBits ++ trailing) - 1 = data.length := by
    rw [checksumGroups_bytes h _ ht, List.length_append, List.length_singleton, Nat.add_sub_cancel]
  rw [validate_of_long long, last, checksumSum_bytes, checksumGroup_bytes h trailing (by simp),
    List.getElem_concat_length rfl]
  rfl

end Sys2Proof.Machine

open Sys2Proof Sys2Proof.Machine

/-- Settles O44: a field in range is below `2^k` and has the word's bits as its digits; out of range `extract` raises. -/
theorem extractReadsMostSignificantBitFirst : Obligations.ExtractReadsMostSignificantBitFirst :=
  fun _ _ _ => ⟨inRange_eq_true,
    fun hr => ⟨_, extract_of_inRange hr, fieldAt_lt hr, fun _ hj => fieldAt_testBit hr hj⟩, extract_of_short⟩

/-- Settles O45: header, data and checksum are the word's whole bytes; a short word has no group to compare. -/
theorem checksumComparesTheByteSum : Obligations.ChecksumComparesTheByteSum := by
  refine ⟨fun h data ck trailing ht => ?bytes, fun w hw => validate_of_short hw⟩
  case bytes =>
    have word : byteBits h ++ data.flatMap byteBits ++ byteBits ck = (h :: (data ++ [ck])).flatMap byteBits := by
      rw [List.flatMap_cons, List.flatMap_append, List.flatMap_singleton, List.append_assoc]
    rw [word, validate_bytes h data ck ht]

end

/-! # The capture instructions: what ARM, RISE and FALL write and read (R122 to R130) -/

section

namespace Sys2Proof.Machine

theorem exec_rise (d : Bool) (now : Word) (s : State) : exec (.rise d now) s = .next (edge .panel d now s) := rfl

theorem exec_fall (d : Bool) (now : Word) (s : State) : exec (.fall d now) s = .next (edge .keypad d now s) := rfl

/-- Steps 1 and 2 of R120 as one update. -/
theorem edgeTiming_eq (now : Word) (s : State) :
    edgeTiming now s = { s with
      lastEdgeTs := now
      edgeInterval := now - s.lastEdgeTs
      cmpK := if GapAt now s then s.bldK else s.cmpK
      bldK := if GapAt now s then [] else s.bldK
      dropK := if GapAt now s then false else s.dropK } := by
  by_cases hg : GapAt now s
  · simp only [edgeTiming_of_gap hg, if_pos hg]
  · simp only [edgeTiming_of_no_gap hg, if_neg hg]

/-- The bounded append of R124 to the panel sequence as one update. -/
theorem appendBit_panel_eq (d : Bool) (s : State) :
    appendBit .panel d s = { s with
      bldP := if s.bldP.length < 200 then s.bldP ++ [d] else s.bldP
      dropP := if s.bldP.length < 200 then s.dropP else true } := by
  by_cases hl : s.bldP.length < 200
  · simp only [appendBit_panel_of_room hl, if_pos hl]
  · simp only [appendBit_panel_of_full hl, if_neg hl]

/-- The bounded append of R124 to the keypad sequence as one update. -/
theorem appendBit_keypad_eq (d : Bool) (s : State) :
    appendBit .keypad d s = { s with
      bldK := if s.bldK.length < 200 then s.bldK ++ [d] else s.bldK
      dropK := if s.bldK.length < 200 then s.dropK else true } := by
  by_cases hl : s.bldK.length < 200
  · simp only [appendBit_keypad_of_room hl, if_pos hl]
  · simp only [appendBit_keypad_of_full hl, if_neg hl]

/-! ## The interval (R128) -/

theorem edge_lastEdgeTs_of_armed {s : State} (harmed : s.captureArmed = true) (r : Role) (d : Bool) (now : Word) :
    (edge r d now s).lastEdgeTs = now := by
  rw [edge_armed harmed, appendBit_lastEdgeTs, edgeTiming_lastEdgeTs]

theorem edge_edgeInterval_of_armed {s : State} (harmed : s.captureArmed = true) (r : Role) (d : Bool) (now : Word) :
    (edge r d now s).edgeInterval = now - s.lastEdgeTs := by
  rw [edge_armed harmed, appendBit_edgeInterval, edgeTiming_edgeInterval, timeSince]

/-- Adding a real gap to the last time and subtracting that time again leaves the gap modulo `2^32`. -/
theorem edge_interval_toNat {s : State} (harmed : s.captureArmed = true) (r : Role) (d : Bool) (g : Nat) :
    (edge r d (s.lastEdgeTs + BitVec.ofNat 32 g) s).edgeInterval.toNat = g % 2 ^ 32 := by
  rw [edge_edgeInterval_of_armed harmed, BitVec.add_comm, BitVec.add_sub_cancel, BitVec.toNat_ofNat]

/-! ## What EDGE writes and reads (R130) -/

theorem edge_frame (r : Role) (d : Bool) (now : Word) (s : State) :
    edge r d now s = { s with
      lastEdgeTs := (edge r d now s).lastEdgeTs
      edgeInterval := (edge r d now s).edgeInterval
      bldP := (edge r d now s).bldP
      bldK := (edge r d now s).bldK
      cmpK := (edge r d now s).cmpK
      dropP := (edge r d now s).dropP
      dropK := (edge r d now s).dropK } := by
  by_cases hc : s.captureArmed = true
  · rw [edge_armed hc]
    cases r with
    | panel => rw [appendBit_panel_eq, edgeTiming_eq]
    | keypad => rw [appendBit_keypad_eq, edgeTiming_eq]
  · rw [edge_disarmed (eq_false_of_ne_true hc)]

/-- Two states hold the same in all that EDGE reads: its seven registers, `captureArmed` and the parameters. -/
structure AgreeForEdge (s s' : State) : Prop where
  cfg : s.cfg = s'.cfg
  captureArmed : s.captureArmed = s'.captureArmed
  lastEdgeTs : s.lastEdgeTs = s'.lastEdgeTs
  edgeInterval : s.edgeInterval = s'.edgeInterval
  bldP : s.bldP = s'.bldP
  bldK : s.bldK = s'.bldK
  cmpK : s.cmpK = s'.cmpK
  dropP : s.dropP = s'.dropP
  dropK : s.dropK = s'.dropK

theorem AgreeForEdge.gapAt_iff {s s' : State} (h : AgreeForEdge s s') (now : Word) : GapAt now s ↔ GapAt now s' := by
  rw [GapAt, GapAt, h.cfg, h.lastEdgeTs]

theorem AgreeForEdge.edgeTiming {s s' : State} (h : AgreeForEdge s s') (now : Word) :
    AgreeForEdge (edgeTiming now s) (edgeTiming now s') := by
  rw [edgeTiming_eq, edgeTiming_eq]
  exact { h with
    lastEdgeTs := rfl
    edgeInterval := congrArg (now - ·) h.lastEdgeTs
    cmpK := by simp only [h.gapAt_iff now, h.bldK, h.cmpK]
    bldK := by simp only [h.gapAt_iff now, h.bldK]
    dropK := by simp only [h.gapAt_iff now, h.dropK] }

theorem AgreeForEdge.appendBit {s s' : State} (h : AgreeForEdge s s') (r : Role) (d : Bool) :
    AgreeForEdge (appendBit r d s) (appendBit r d s') := by
  cases r with
  | panel =>
    rw [appendBit_panel_eq, appendBit_panel_eq]
    exact { h with
      bldP := by simp only [h.bldP]
      dropP := by simp only [h.bldP, h.dropP] }
  | keypad =>
    rw [appendBit_keypad_eq, appendBit_keypad_eq]
    exact { h with
      bldK := by simp only [h.bldK]
      dropK := by simp only [h.bldK, h.dropK] }

theorem AgreeForEdge.edge {s s' : State} (h : AgreeForEdge s s') (r : Role) (d : Bool) (now : Word) :
    AgreeForEdge (edge r d now s) (edge r d now s') := by
  cases hc : s.captureArmed with
  | false => rwa [edge_disarmed hc, edge_disarmed (h.captureArmed.symm.trans hc)]
  | true =>
    rw [edge_armed hc, edge_armed (h.captureArmed.symm.trans hc)]
    exact (h.edgeTiming now).appendBit r d

end Sys2Proof.Machine

open Sys2Proof Sys2Proof.Machine

/-- Settles O12: the timing of the edge and then the bounded append to the panel sequence, which the timing leaves. -/
theorem riseCapturesAPanelBit : Obligations.RiseCapturesAPanelBit := by
  refine fun d now => ⟨decodeEvent_rise d now, fun s harmed => ?_⟩
  rw [exec_rise, edge_armed harmed, appendBit_panel_eq, edgeTiming_eq]

/-- Settles O13: a gap empties the keypad sequence before the append, so the bit finds room; without one the append is
bounded by what is held. -/
theorem fallCapturesAKeypadBit : Obligations.FallCapturesAKeypadBit := by
  refine fun d now => ⟨decodeEvent_fall d now, fun s harmed => ⟨fun hg => ?gap, fun hg => ?noGap⟩⟩
  case gap =>
    rw [exec_fall, edge_armed harmed, edgeTiming_of_gap hg, appendBit_keypad_of_room (by simp)]
    rfl
  case noGap => rw [exec_fall, edge_armed harmed, edgeTiming_of_no_gap hg, appendBit_keypad_eq]

/-- Settles O14: both forms store the difference of the times, which is the real gap modulo `2^32`. -/
theorem edgeIntervalsWrapAround : Obligations.EdgeIntervalsWrapAround := fun d g _ harmed =>
  ⟨⟨_, rfl, edge_interval_toNat harmed .panel d g, edge_lastEdgeTs_of_armed harmed .panel d _⟩,
    ⟨_, rfl, edge_interval_toNat harmed .keypad d g, edge_lastEdgeTs_of_armed harmed .keypad d _⟩⟩

/-- Settles O15: the frame of EDGE, and that both its parts keep the agreement of two states on what EDGE reads. -/
theorem edgesReadAndWriteOnlyTheirRegisters : Obligations.EdgesReadAndWriteOnlyTheirRegisters := by
  intro i hi
  rcases transactionOf_eq_some hi with ⟨-, r, d, now, he⟩ | ⟨⟨⟩, -⟩ | ⟨⟨⟩, -⟩ | ⟨⟨⟩, -⟩
  refine ⟨fun s => ⟨_, he s, edge_frame r d now s⟩, ?reads⟩
  intro s s' t t' ht ht' hcfg harmed hlast hinterval hbldP hbldK hcmpK hdropP hdropK
  cases (he s).symm.trans ht
  cases (he s').symm.trans ht'
  have agree : AgreeForEdge s s' := ⟨hcfg, harmed, hlast, hinterval, hbldP, hbldK, hcmpK, hdropP, hdropK⟩
  obtain ⟨-, -, hlast', hinterval', hbldP', hbldK', hcmpK', hdropP', hdropK'⟩ := agree.edge r d now
  exact ⟨hlast', hinterval', hbldP', hbldK', hcmpK', hdropP', hdropK'⟩

/-- Settles O10: ARM is one register update, and its event word decodes by kind and data bit alone. -/
theorem armWritesOnlyCaptureArmed : Obligations.ArmWritesOnlyCaptureArmed :=
  fun v _ => ⟨rfl, decodeEvent_arm v⟩

/-- Settles O11: a disarmed edge of either role leaves the state. -/
theorem disarmedEdgesChangeNothing : Obligations.DisarmedEdgesChangeNothing := by
  intro d now s hc
  simp only [exec_rise, exec_fall, edge_disarmed hc, and_self]

end

/-! # POLL as a whole: the guard, the indicator and the report (R140 to R149) -/

section

namespace Sys2Proof.Machine

/-- The panel map names no transaction. -/
theorem transactionOf_panelInstr (code : Byte) (tail : Bits) (now : Word) (a : Bool) :
    transactionOf (panelInstr code tail now a) = none := by
  refine (panelCase_map transactionOf code _ _ _ _ _ _ _ _ _ _ _ _ _ _ _ _).trans ?_
  simp only [panelCase, transactionOf, ite_self]

/-- The result code as a number: 2 for a keypad command output, 1 for a panel one (R146). -/
theorem resultCode_eq_ofNat (s : State) : resultCode s =
    BitVec.ofNat 2 ((if s.cmdOutK ≠ 0 then 2 else 0) + (if s.cmdOutP ≠ 0 then 1 else 0)) := by
  have table : ∀ k p : Bool, BitVec.ofBool k ++ BitVec.ofBool p =
      BitVec.ofNat 2 ((if k then 2 else 0) + (if p then 1 else 0)) := by decide
  simp only [resultCode, table, decide_eq_true_iff]

theorem resultCode_toNat (s : State) : (resultCode s).toNat =
    (if s.cmdOutP ≠ 0 then 1 else 0) + 2 * (if s.cmdOutK ≠ 0 then 1 else 0) := by
  rw [resultCode_eq_ofNat]
  split_ifs <;> rfl

theorem statusIndicator_eq_true {s : State} {now : Word} :
    statusIndicator s now = true ↔ s.statusSeen = true ∧ (now - s.lastStatusTs).toNat ≤ 500000 := by
  rw [statusIndicator, Bool.and_eq_true, decide_eq_true_iff]
  rfl

/-- The indicator is set before the decode, and neither decoder writes it (R142). -/
theorem execPoll_statusLed {a : Bool} {now : Word} {s t : State} (h : execPoll a now s = .next t) :
    t.statusLed = statusIndicator s now := by
  rcases execPoll_cases a now s with ⟨-, he⟩ | ⟨-, code, p, k, -, hp, hk, he⟩
  · cases he.symm.trans h
    rfl
  · cases he.symm.trans h
    rw [hk.frame, hp.frame]
    rfl

/-- A guard pass ends with the result that its command outputs give (R146). -/
theorem execPoll_result {a : Bool} {now : Word} {s t : State} (hpass : PollPasses s) (h : execPoll a now s = .next t) :
    t.result = resultCode t := by
  rcases execPoll_cases a now s with ⟨hg, -⟩ | ⟨-, code, p, k, -, -, -, he⟩
  · exact absurd (pollPasses_iff.mp hpass) hg
  · cases he.symm.trans h
    rfl

/-- A panel row leaves what the keypad row is chosen by: the configuration and the completed keypad word. -/
theorem PanelRowEffect.keeps_keypad_input {code : Byte} {w : Bits} {now : Word} {a : Bool} {s t : State}
    (h : PanelRowEffect code w now a s t) : t.cfg = s.cfg ∧ t.cmpK = s.cmpK := by
  rw [h.frame]
  exact ⟨rfl, rfl⟩

end Sys2Proof.Machine

open Sys2Proof Sys2Proof.Machine

/-- Settles O17: only the first step of POLL runs, and the result is cleared. -/
theorem guardFailureWritesOnlyThreeRegisters : Obligations.GuardFailureWritesOnlyThreeRegisters :=
  fun _ _ _ hfail => execPoll_of_guard_fails fun hg => hfail (pollPasses_iff.mpr hg)

/-- Settles O18: on both outcomes of the guard the indicator keeps the level it took before the decode. -/
theorem everyPollUpdatesTheIndicator : Obligations.EveryPollUpdatesTheIndicator := by
  intro a now s
  obtain ⟨t, ht⟩ := exec_decodeEvent_next (decodeEvent_pollWord a now) s
  refine ⟨t, ht, ?_, rfl⟩
  rw [execPoll_statusLed ht, statusIndicator_eq_true]

/-- Settles O19: what a guard pass promotes, what both rows report, and the result read from their outputs. -/
theorem guardPassPromotesAndReports : Obligations.GuardPassPromotesAndReports := by
  intro a now s hpass
  obtain ⟨t, ht⟩ := exec_decodeEvent_next (decodeEvent_pollWord a now) s
  obtain ⟨hbldP, hcmpP, hdropP⟩ := (execPoll_panelCapture ht).1 hpass
  exact ⟨t, ht, hcmpP, hbldP, hdropP, by rw [execPoll_result hpass ht, resultCode_toNat],
    execPoll_reports hpass ht⟩

/-- Settles O21: the guard pass empties the panel sequence, so the guard fails at the next POLL. -/
theorem secondPollFindsNothing : Obligations.SecondPollFindsNothing := by
  intro a a' now now' s t hpass ht
  refine guardFailureWritesOnlyThreeRegisters a' now' t fun ⟨_, hlong⟩ => ?_
  rw [((execPoll_panelCapture ht).1 hpass).1] at hlong
  exact absurd hlong (by decide)

/-- Settles O6: the word that the guard lets pass has a command byte, and the framer's rows are those of the decoder. -/
theorem pollRunsTheDecodedWords : Obligations.PollRunsTheDecodedWords := by
  intro a now s hpass
  obtain ⟨code, t, hw, hrow, effect⟩ :=
    panelRow_effect_of_long hpass.2 now a (clearEvents (promote .panel (beginPoll now s)))
  have hdecode : decodePanel s.bldP now a = .ok (panelInstr code (s.bldP.drop 8) now a) := by
    rw [← decodePanel_command code, ← hw]
  refine ⟨_, hdecode, transactionOf_panelInstr .., ?_⟩
  have hpanel := (exec_of_decodePanel hdecode (clearEvents (promote .panel (beginPoll now s)))).trans hrow
  have hcfg : t.cfg = s.cfg := effect.keeps_keypad_input.1
  have hcmpK : t.cmpK = s.cmpK := effect.keeps_keypad_input.2
  obtain ⟨u, hu, -⟩ := keypadRow_effect t.cmpK now t
  have hkeypad : exec (decodeKeypad s.cfg s.cmpK now) t = .next u := by
    rw [← hcfg, ← hcmpK, exec_decodeKeypad, ← keypadRow_eq, hu]
  calc exec (.poll a now) s
      = framePass a now (beginPoll now s) := execPoll_of_guard_passes (pollPasses_iff.mp hpass)
    _ = .next (endPoll u) := by
      simp only [framePass, clearEvents_cmpP, promote_panel_cmpP]
      rw [show (beginPoll now s).bldP = s.bldP from rfl, hrow, andThen_next, hu, andThen_next]
    _ = _ := by
      change _ = andThen (exec _ (clearEvents (promote .panel (beginPoll now s)))) _
      rw [hpanel, andThen_next, hkeypad, andThen_next, endPoll, resultCode_eq_ofNat]

end

/-! # The two decoders commute (R145) -/

section

namespace Sys2Proof.Machine

/-- What KeypadDecode of `w` writes: its outputs, and with a message the commit of the word too (R200, R202). -/
def keypadReport (w : Bits) (now : Word) (message : Option KeypadEvent) (out : Byte) (st : DStat) (s : State) : State :=
  { s with
    lastDataTs := if message.isSome then now else s.lastDataTs
    prvK := if message.isSome then w else s.prvK
    evK := message.getD s.evK
    cmdOutK := out
    dstatK := st }

/-- KeypadDecode reads nothing of the state but the configuration: what it writes is the same in every state. -/
theorem keypadRun_eq_report (c : Config) (w : Bits) (now : Word) :
    ∃ message out st, ∀ s : State, s.cfg = c → keypadRun w now s = .next (keypadReport w now message out st s) := by
  by_cases hz : false ∈ w
  · by_cases hl : 8 ≤ w.length ∧ c.kpByte2Off + 8 ≤ w.length
    · obtain ⟨code, kb2, haccept⟩ :
          ∃ code kb2, ∀ s : State, s.cfg = c → keypadRun w now s = .next (keypadAccept w code kb2 now s) :=
        ⟨_, BitVec.ofNat 8 (fieldAt w c.kpByte2Off 8), by rintro s rfl; exact keypadRun_accept hz hl.1 hl.2 now⟩
      refine ⟨some (.ke (buttonOf c code kb2) (extrasOf c code)), code, if code = 0x00 then .nullCommand else .ok,
        fun s hs => ?_⟩
      rw [haccept s hs, ← hs]
      rfl
    · exact ⟨none, 0, .indexOutOfRange, by rintro s rfl; exact keypadRun_short hz hl now⟩
  · exact ⟨none, 0, .noise, fun s _ => keypadRun_noise hz now s⟩

/-- A branch reads no register of the keypad decoder and writes none. -/
def Branch.CommutesWithKeypad (b : Branch) : Prop :=
  ∀ (v w : Bits) (now : Word) (message : Option KeypadEvent) (out : Byte) (st : DStat) (s : State),
    b w now (keypadReport v now message out st s) = keypadReport v now message out st <$> b w now s

theorem statusBranch_commutesWithKeypad : statusBranch.CommutesWithKeypad := by
  intro v w now message out st s
  simp only [statusBranch, map_bind]
  rfl

theorem datetimeBranch_commutesWithKeypad (a : Bool) : (datetimeBranch a).CommutesWithKeypad := by
  intro v w now message out st s
  simp only [datetimeBranch, map_bind]
  rfl

theorem zoneBranch_commutesWithKeypad (g : ZoneGroup) (off : Nat) : (zoneBranch g off).CommutesWithKeypad := by
  intro v w now message out st s
  simp only [zoneBranch, map_bind]
  rfl

theorem messageBranch_commutesWithKeypad (ev : PanelEvent) : (messageBranch ev).CommutesWithKeypad :=
  fun _ _ _ _ _ _ _ => rfl

/-- The branch of every command byte commutes with the keypad decoder's writes. -/
theorem panelBranch_commutesWithKeypad (c : Config) (code : Byte) (a : Bool) :
    (panelBranch c code a).CommutesWithKeypad := by
  refine panelCode_cases (P := fun code => (panelBranch c code a).CommutesWithKeypad) code
    (status := statusBranch_commutesWithKeypad) (datetime := datetimeBranch_commutesWithKeypad a)
    (zoneA := zoneBranch_commutesWithKeypad _ _) (zoneB := zoneBranch_commutesWithKeypad _ _)
    (zoneC := zoneBranch_commutesWithKeypad _ _) (zoneD := zoneBranch_commutesWithKeypad _ _)
    (raw := fun hn => ?raw) ?_ ?_ ?_ ?_ ?_ ?_ ?_ ?_ ?_
  case raw =>
    rw [panelBranch, panelCase_raw hn]
    exact messageBranch_commutesWithKeypad _
  all_goals exact messageBranch_commutesWithKeypad _

/-- Both commits write the same time of the last data, so they commute too (R165, R202). -/
theorem commit_panel_keypadReport (v w : Bits) (now : Word) (message : Option KeypadEvent) (out : Byte) (st : DStat)
    (s : State) : commit .panel w now (keypadReport v now message out st s) =
      keypadReport v now message out st (commit .panel w now s) := by
  cases message <;> rfl

/-- PanelDecode after the keypad decoder's writes answers what it answers before them, with the writes on top. -/
theorem panelRun_keypadReport {b : Branch} (hb : b.CommutesWithKeypad) {code : Byte} {fs : List FieldSpec} {st : DStat}
    {tail : Bits} {now : Word} {s t : State} (h : panelRun code fs b st tail now s = .next t) (v : Bits)
    (message : Option KeypadEvent) (out : Byte) (stK : DStat) :
    panelRun code fs b st tail now (keypadReport v now message out stK s) =
      .next (keypadReport v now message out stK t) := by
  cases hg : panelGate code (byteBits code ++ tail) fs s with
  | some why =>
    cases (panelRun_of_rejected hg).symm.trans h
    exact panelRun_of_rejected (s := keypadReport v now message out stK s) hg
  | none =>
    cases hu : b (byteBits code ++ tail) now (commit .panel (byteBits code ++ tail) now s) with
    | error r => simp only [panelRun, hg, hu, reduceCtorEq] at h
    | ok u =>
      cases (panelRun_of_accepted hg hu).symm.trans h
      refine panelRun_of_accepted (s := keypadReport v now message out stK s)
        (t := keypadReport v now message out stK u) hg ?_
      rw [commit_panel_keypadReport, hb, hu]
      rfl

theorem panelRow_keypadReport {code : Byte} {tail : Bits} {now : Word} {a : Bool} {s t : State}
    (h : panelRow (byteBits code ++ tail) now a s = .next t) (v : Bits) (message : Option KeypadEvent) (out : Byte)
    (st : DStat) : panelRow (byteBits code ++ tail) now a (keypadReport v now message out st s) =
      .next (keypadReport v now message out st t) := by
  rw [panelRow_command] at h ⊢
  exact panelRun_keypadReport (panelBranch_commutesWithKeypad _ _ _) h v message out st

end Sys2Proof.Machine

open Sys2Proof Sys2Proof.Machine

/-- Settles O23: the keypad decoder writes the same from every state with these parameters, and the panel decoder's work
commutes with those writes. -/
theorem decoderOrderAffectsNothing : Obligations.DecoderOrderAffectsNothing := by
  intro w v now a s i hi
  obtain ⟨message, out, st, hkeypad⟩ := keypadRun_eq_report s.cfg v now
  obtain ⟨code, tail, rfl, rfl⟩ := decodePanel_eq_ok hi
  obtain ⟨t, hpanel, effect⟩ := panelRow_effect code tail now a s
  have hcfg : t.cfg = s.cfg := effect.keeps_keypad_input.1
  have panelFirst : andThen (exec (panelInstr code tail now a) s) (exec (decodeKeypad s.cfg v now)) =
      .next (keypadReport v now message out st t) := by
    rw [exec_panelInstr, hpanel, andThen_next, ← hcfg, exec_decodeKeypad, hkeypad t hcfg]
  have keypadFirst : andThen (exec (decodeKeypad s.cfg v now) s) (exec (panelInstr code tail now a)) =
      .next (keypadReport v now message out st t) := by
    rw [exec_decodeKeypad, hkeypad s rfl, andThen_next, exec_panelInstr, panelRow_keypadReport hpanel]
  exact panelFirst.trans keypadFirst.symm

end

/-! # The panel rows: the tests in their order, and what an accepted word reports (R160 to R183) -/

section

namespace Sys2Proof.Machine

/-! ## The gate, test by test (R161 to R164) -/

/-- The checksum test comes after those for duplicates and null commands (R163). -/
theorem panelGate_checksum {code : Byte} {w : Bits} {s : State} (hw : w ≠ s.prvP) (hc : code ≠ 0x00)
    (hstrict : s.cfg.checksumStrict = true) (hv : validate s.cfg.ckDataOffset w = false) (fs : List FieldSpec) :
    panelGate code w fs s = some .checksumMismatch := by
  rw [panelGate, if_neg hw, if_neg hc, if_pos (by rw [hstrict, hv]; rfl)]

/-- Without strict mode the checksum is no reason to reject a word. -/
theorem panelGate_ne_checksum {s : State} (hstrict : s.cfg.checksumStrict = false) (code : Byte) (w : Bits)
    (fs : List FieldSpec) : panelGate code w fs s ≠ some .checksumMismatch := by
  rw [panelGate, hstrict, Bool.false_and, if_neg Bool.false_ne_true]
  split_ifs <;> decide

/-- The range pre-check is the last test: what fails it alone is rejected for it (R164). -/
theorem panelGate_short {code : Byte} {w : Bits} {fs : List FieldSpec} {s : State} (hw : w ≠ s.prvP) (hc : code ≠ 0x00)
    (hv : s.cfg.checksumStrict = true → validate s.cfg.ckDataOffset w = true) (hf : ∃ f ∈ fs, w.length < f.1 + f.2) :
    panelGate code w fs s = some .indexOutOfRange := by
  have hck : ¬ (s.cfg.checksumStrict && !validate s.cfg.ckDataOffset w) = true := by simpa using hv
  have hrange : ¬ fieldsInRange w fs = true := by simpa using hf
  rw [panelGate, if_neg hw, if_neg hc, if_neg hck, if_neg hrange]

/-- A word of a non-zero code passes the gate when it is accepted with the fields of its branch. -/
theorem PanelAccepts.gate {code : Byte} {w : Bits} {fs : List FieldSpec} {s : State} (h : PanelAccepts w fs s)
    (hc : code ≠ 0x00) : panelGate code w fs s = none :=
  have ⟨hw, hv, hf⟩ := h
  panelGate_none.mpr ⟨hw, hc, hv, hf⟩

/-- An accepted word is accepted with any other fields that lie inside it. -/
theorem PanelAccepts.withFields {w : Bits} {fs fs' : List FieldSpec} {s : State} (h : PanelAccepts w fs s)
    (hf : ∀ f ∈ fs', f.1 + f.2 ≤ w.length) : PanelAccepts w fs' s :=
  have ⟨hw, hv, _⟩ := h
  ⟨hw, hv, hf⟩

/-! ## PanelDecode of a rejected and of an accepted word -/

section

variable {code : Byte} {fs : List FieldSpec} {b : Branch} {st : DStat} {tail : Bits} {now : Word} {s : State}

/-- A word that ends before a field of its branch is rejected, with nothing committed (R164). -/
theorem panelRun_of_short (hc : code ≠ 0x00)
    (h : byteBits code ++ tail ≠ s.prvP ∧
      (s.cfg.checksumStrict = true → validate s.cfg.ckDataOffset (byteBits code ++ tail) = true) ∧
      ∃ f ∈ fs, 8 + tail.length < f.1 + f.2) :
    panelRun code fs b st tail now s = .next { s with cmdOutP := 0, dstatP := .indexOutOfRange } := by
  obtain ⟨hw, hv, hf⟩ := h
  exact panelRun_of_rejected (panelGate_short hw hc hv (by rwa [List.length_append, byteBits_length]))

/-- An accepted word is committed, its branch is run, and its code is reported (R165, R183). -/
theorem panelRun_of_accepts {t : State} (hc : code ≠ 0x00) (h : PanelAccepts (byteBits code ++ tail) fs s)
    (hb : b (byteBits code ++ tail) now (commit .panel (byteBits code ++ tail) now s) = .ok t) :
    panelRun code fs b st tail now s = .next { t with cmdOutP := code, dstatP := st } :=
  panelRun_of_accepted (h.gate hc) hb

/-- An accepted word whose code is its whole message (R174 to R182). -/
theorem panelRun_message {ev : PanelEvent} (hc : code ≠ 0x00) (h : PanelAccepts (byteBits code ++ tail) noFields s) :
    panelRun code noFields (messageBranch ev) st tail now s = .next { s with
      lastDataTs := now, prvP := byteBits code ++ tail, evP := ev, cmdOutP := code, dstatP := st } :=
  (panelRun_of_accepts hc h rfl).trans rfl

/-- An accepted word of a zone group, its bitmap being `v` (R169). -/
theorem panelRun_zone {g : ZoneGroup} {off v : Nat} (hc : code ≠ 0x00)
    (h : PanelAccepts (byteBits code ++ tail) [] s ∧ extract (byteBits code ++ tail) off 8 = .ok v) :
    panelRun code (zoneFields off) (zoneBranch g off) st tail now s = .next { s with
      lastDataTs := now, prvP := byteBits code ++ tail, evP := zoneEvent g (BitVec.ofNat 8 v), cmdOutP := code
      dstatP := st } := by
  obtain ⟨haccepts, hv⟩ := h
  obtain ⟨hrange, rfl⟩ := extract_eq_ok hv
  have hf : ∀ f ∈ zoneFields off, f.1 + f.2 ≤ (byteBits code ++ tail).length := by simpa [zoneFields] using hrange
  exact panelRun_of_accepts hc (haccepts.withFields hf) (zoneBranch_ok hf)

end

/-- P_NULL is rejected, whatever follows its command byte (R162). -/
theorem exec_pNull (tail : Bits) (s : State) : exec (.pNull tail) s =
    .next (reject .panel (if byteBits 0x00 ++ tail = s.prvP then .duplicate else .nullCommand) s) := by
  change execPNull tail s = _
  rw [execPNull, panelRun_of_rejected (panelGate_null _ _ s)]

end Sys2Proof.Machine

open Sys2Proof Sys2Proof.Machine

/-- Settles O25: the test for duplicates is the first one, for every row. -/
theorem duplicatePanelWordsAreRejected : Obligations.DuplicatePanelWordsAreRejected := by
  intro now a s i hi
  obtain ⟨code, tail, hw, rfl⟩ := decodePanel_eq_ok hi
  rw [exec_panelInstr, panelRow_command, panelRun_of_rejected (panelGate_duplicate hw.symm _ _)]
  rfl

/-- Settles O26: the gate rejects every null word, as a duplicate where it is one. -/
theorem nullCommandsAreRejected : Obligations.NullCommandsAreRejected := by
  refine fun tail s => ⟨fun hw => ?_, fun hw => ?_⟩
  · rw [exec_pNull, if_neg hw]
    rfl
  · rw [exec_pNull, if_pos hw]
    rfl

/-- Settles O27: in strict mode the gate's third test applies; without it no rejection is for the checksum, and no
acceptance is reported so. -/
theorem checksumGatesInStrictModeOnly : Obligations.ChecksumGatesInStrictModeOnly := by
  intro w now a s i hi
  obtain ⟨code, tail, rfl, rfl⟩ := decodePanel_eq_ok hi
  rw [exec_panelInstr]
  refine ⟨fun hstrict hw hone hv => ?_, fun hstrict => ?_⟩
  · have hc : code ≠ 0x00 := by
      rintro rfl
      rw [take_command] at hone
      exact absurd hone (by decide)
    rw [panelRow_command, panelRun_of_rejected (panelGate_checksum hw hc hstrict hv _)]
    rfl
  · rcases panelRow_cases code tail now a s with ⟨why, -, hgate, he⟩ | ⟨-, hc, t, -, he⟩
    · refine ⟨_, he, ?_⟩
      rintro rfl
      exact panelGate_ne_checksum hstrict _ _ _ hgate
    · refine ⟨_, he, fun hst => ?_⟩
      have haccepted : DStat.checksumMismatch ∈ [DStat.ok, .unknownCommand] := hst ▸ panelStatus_of_ne_zero hc
      exact absurd haccepted (by decide)

/-- Settles O28: each of the six rows that read fields runs the range pre-check on all of them. -/
theorem shortPanelWordsAreRejected : Obligations.ShortPanelWordsAreRejected := fun _ _ _ _ =>
  ⟨panelRun_of_short (by decide), panelRun_of_short (by decide), panelRun_of_short (by decide),
    panelRun_of_short (by decide), panelRun_of_short (by decide), panelRun_of_short (by decide)⟩

/-- Settles O29: an accepted status word has its seven flags in range. -/
theorem statusWordsAreDecoded : Obligations.StatusWordsAreDecoded := fun _ _ s h =>
  have ⟨_, _, hf⟩ := h
  panelRun_of_accepts (fs := statusFields s.cfg) (by decide) h (statusBranch_ok hf)

/-- Settles O30: the fields that `extract` answers lie in the word, so the word is accepted with all of them. -/
theorem datetimeWordsAreDecoded : Obligations.DatetimeWordsAreDecoded := by
  intro tail now a s y1 y2 month day hour minute arm uraw c w h hy1 hy2 hmonth hday hhour hminute harm huser
  have ⟨_, _, hfields⟩ := h
  have hmaster : c.dtMasterOff + 1 ≤ w.length := hfields _ (List.mem_singleton_self _)
  obtain ⟨ry1, rfl⟩ := extract_eq_ok hy1
  obtain ⟨ry2, rfl⟩ := extract_eq_ok hy2
  obtain ⟨rmonth, rfl⟩ := extract_eq_ok hmonth
  obtain ⟨rday, rfl⟩ := extract_eq_ok hday
  obtain ⟨rhour, rfl⟩ := extract_eq_ok hhour
  obtain ⟨rminute, rfl⟩ := extract_eq_ok hminute
  obtain ⟨rarm, rfl⟩ := extract_eq_ok harm
  obtain ⟨ruser, rfl⟩ := extract_eq_ok huser
  have hf : ∀ f ∈ datetimeFields s.cfg, f.1 + f.2 ≤ w.length := by
    simp only [datetimeFields, dateFields, List.cons_append, List.nil_append, List.forall_mem_cons, List.not_mem_nil,
      false_imp_iff, implies_true, and_true]
    exact ⟨ry1, ry2, rmonth, rday, rhour, rminute, rarm, hmaster, ruser⟩
  exact panelRun_of_accepts (by decide) (h.withFields hf) (datetimeBranch_ok hf)

/-- Settles O31: the four groups differ in code, offset and base alone. -/
theorem zoneWordsAreDecoded : Obligations.ZoneWordsAreDecoded := fun _ _ _ _ =>
  ⟨panelRun_zone (by decide), panelRun_zone (by decide), panelRun_zone (by decide), panelRun_zone (by decide)⟩

/-- Settles O32: the eight labels are messages of their code. -/
theorem labelWordsAreDecoded : Obligations.LabelWordsAreDecoded := fun _ _ _ =>
  ⟨panelRun_message (by decide), panelRun_message (by decide), panelRun_message (by decide),
    panelRun_message (by decide), panelRun_message (by decide), panelRun_message (by decide),
    panelRun_message (by decide), panelRun_message (by decide)⟩

/-- Settles O33: a code that R77 does not name is not 0, and it is the whole message. -/
theorem rawWordsAreDecoded : Obligations.RawWordsAreDecoded := fun _ _ _ _ hraw h =>
  panelRun_message (fun hc => hraw (hc ▸ List.mem_cons_self)) h

/-- Settles O34: the verdict of a panel row's effect. -/
theorem panelReturnValueTellsAcceptance : Obligations.PanelReturnValueTellsAcceptance := by
  intro w now a s i hi
  obtain ⟨code, tail, rfl, rfl⟩ := decodePanel_eq_ok hi
  obtain ⟨t, he, effect⟩ := panelRow_effect code tail now a s
  refine ⟨t, (exec_panelInstr ..).trans he, ?_⟩
  rcases effect.verdict with rejected | ⟨hst, hc, -, hcmd, hprv, hlast, -, -⟩
  · exact .inr rejected
  · exact .inl ⟨hst, by rw [hcmd, extract_command], hcmd ▸ hc, hprv, hlast⟩

/-- Settles O35: the frame of a panel row's effect. -/
theorem panelRowFrame : Obligations.PanelRowFrame := by
  intro w now a s t i hi h
  obtain ⟨code, tail, rfl, rfl⟩ := decodePanel_eq_ok hi
  obtain ⟨t', he, effect⟩ := panelRow_effect code tail now a s
  cases ((exec_panelInstr ..).trans he).symm.trans h
  exact ⟨effect.frame, effect.status, effect.timeSync⟩

end

/-! # The values of panel words: the zone list (R169) and the user code (R167) -/

section

namespace Sys2Proof.Machine

theorem mem_zonesOf {b : Byte} {base z : Nat} :
    z ∈ zonesOf b base ↔ ∃ k < 8, b.getLsbD k = true ∧ z = base + k + 1 := by
  simp only [zonesOf, List.mem_map, List.mem_filter, List.mem_range, and_assoc, eq_comm (a := z)]

theorem zonesOf_increasing (b : Byte) (base : Nat) : (zonesOf b base).Pairwise (· < ·) :=
  (List.pairwise_lt_range.filter _).map _ fun _ _ h => by omega

/-- The bit of weight `2^k` of a field read as a byte stands `7 - k` places into the field (R101). -/
theorem getLsbD_ofNat_fieldAt {w : Bits} {off k : Nat} (h : off + 8 ≤ w.length) (hk : k < 8) :
    (BitVec.ofNat 8 (fieldAt w off 8)).getLsbD k = w.getD (off + 7 - k) false := by
  have hbit := fieldAt_testBit h (show 7 - k < 8 by omega)
  rw [show 8 - 1 - (7 - k) = k by omega, ← Nat.add_sub_assoc (by omega)] at hbit
  rw [BitVec.getLsbD_ofNat, decide_eq_true hk, Bool.true_and, hbit]

/-- The user code that is remapped: in the armed state it is read relative to the configured offset (R167). -/
def baseUser (c : Config) (arm : BitVec 2) (uraw : Nat) : Int :=
  if arm = c.armStateArmed then uraw - (c.armUserOffset : Int) else uraw

theorem remapUser_eq (c : Config) (arm : BitVec 2) (u : Nat) :
    remapUser c arm u = if baseUser c arm u ≤ 33 then baseUser c arm u + 1 else baseUser c arm u + 6 := by
  change (if baseUser c arm u + 1 > 34 then baseUser c arm u + 1 + 5 else baseUser c arm u + 1) = _
  split_ifs <;> omega

end Sys2Proof.Machine

open Sys2Proof Sys2Proof.Machine

/-- Settles O46: the list filters the increasing bit numbers, and a bitmap is a field of eight bits. -/
theorem zoneListIsTheBitmap : Obligations.ZoneListIsTheBitmap := by
  refine ⟨fun b base z => mem_zonesOf, zonesOf_increasing, fun w off v k hv hk => ?_,
    fun g b => ⟨_, rfl, decide_eq_true_iff⟩⟩
  obtain ⟨hrange, rfl⟩ := extract_eq_ok hv
  exact getLsbD_ofNat_fieldAt hrange hk

/-- Settles O47: one range test on the code relative to its base, which the arm state chooses. -/
theorem userCodesAreRemapped : Obligations.UserCodesAreRemapped := by
  intro c arm u _
  have hunarmed (h : arm ≠ c.armStateArmed) : baseUser c arm u = u := if_neg h
  have harmed (h : arm = c.armStateArmed) : baseUser c arm u = u - (c.armUserOffset : Int) := if_pos h
  refine ⟨fun h hu => ?_, fun h hu => ?_, fun h hu => ?_, fun h hu => ?_⟩
  · rw [remapUser_eq, hunarmed h, if_pos (by omega)]
  · rw [remapUser_eq, hunarmed h, if_neg (by omega)]
  · rw [remapUser_eq, harmed h, if_pos (by omega)]
  · rw [remapUser_eq, harmed h, if_neg (by omega)]

end

/-! # The keypad rows: rejection, what an accepted word reports, and a repeated word (R200 to R211) -/

section

namespace Sys2Proof.Machine

/-- The labels, each under the test of its own code (R205 to R207). -/
theorem extrasOf_eq (c : Config) (code : Byte) :
    extrasOf c code = (if c.kpCodeFire = code then [Extra.fire] else []) ++
      (if c.kpCodeAux = code then [Extra.aux] else []) ++ (if c.kpCodePanic = code then [Extra.panic] else []) := by
  simp only [extrasOf, eq_comm (a := code)]

/-- An accepted word is committed, and reported by its two bytes (R202 to R210). -/
theorem keypadRun_of_accepts {w : Bits} {s : State} {v v2 : Nat} (h : KeypadAccepts w s) (hv : extract w 0 8 = .ok v)
    (hv2 : extract w s.cfg.kpByte2Off 8 = .ok v2) (now : Word) :
    keypadRun w now s = .next (keypadAccept w (BitVec.ofNat 8 v) (BitVec.ofNat 8 v2) now s) := by
  obtain ⟨hz, h8, hb⟩ := h
  obtain ⟨-, rfl⟩ := extract_eq_ok hv
  obtain ⟨-, rfl⟩ := extract_eq_ok hv2
  exact keypadRun_accept hz h8 hb now

/-- What an accepted word of a command byte and a tail leaves, its second byte being `v`. -/
theorem keypadRun_command {code : Byte} {tail : Bits} {s : State} {v : Nat}
    (h : KeypadAccepts (byteBits code ++ tail) s ∧ extract (byteBits code ++ tail) s.cfg.kpByte2Off 8 = .ok v)
    (now : Word) : keypadRun (byteBits code ++ tail) now s = .next { s with
      lastDataTs := now
      prvK := byteBits code ++ tail
      evK := .ke (buttonOf s.cfg code (BitVec.ofNat 8 v))
        ((if s.cfg.kpCodeFire = code then [Extra.fire] else []) ++
          (if s.cfg.kpCodeAux = code then [Extra.aux] else []) ++
          (if s.cfg.kpCodePanic = code then [Extra.panic] else []))
      cmdOutK := code
      dstatK := if code = 0 then .nullCommand else .ok } := by
  obtain ⟨haccepts, hv⟩ := h
  rw [keypadRun_of_accepts haccepts (extract_command code tail) hv, BitVec.ofNat_toNat, BitVec.setWidth_eq,
    ← extrasOf_eq]
  rfl

/-- A code that R79 does not name has no button and no label (R208). -/
theorem keypadAccept_other {code : Byte} {s : State}
    (h : code ∉ [0xff, s.cfg.kpCodeFire, s.cfg.kpCodeAux, s.cfg.kpCodePanic]) (w : Bits) (kb2 : Byte) (now : Word) :
    keypadAccept w code kb2 now s = { s with
      lastDataTs := now
      prvK := w
      evK := .ke .none []
      cmdOutK := code
      dstatK := if code = 0 then .nullCommand else .ok } := by
  simp only [List.mem_cons, List.not_mem_nil, or_false, not_or] at h
  obtain ⟨hbutton, hfire, haux, hpanic⟩ := h
  have hextras : extrasOf s.cfg code = [] := by
    rw [extrasOf, if_neg hfire, if_neg haux, if_neg hpanic]
    rfl
  rw [keypadAccept, buttonOf, if_neg hbutton, hextras]
  rfl

/-- The status of an accepted word (R209). -/
theorem keypadAccept_dstatK_mem (w : Bits) (code kb2 : Byte) (now : Word) (s : State) :
    (keypadAccept w code kb2 now s).dstatK ∈ [DStat.ok, .nullCommand] := by
  simp only [keypadAccept]
  split <;> decide

/-- The configuration alone decides whether a word is rejected and why, or accepted and with which bytes; neither the
time nor an earlier word does (R211). -/
theorem keypadRun_verdict (c : Config) (w : Bits) :
    (∃ why ∈ [DStat.noise, .indexOutOfRange], ∀ (now : Word) (s : State), s.cfg = c →
      keypadRun w now s = .next (reject .keypad why s)) ∨
    ∃ code kb2, ∀ (now : Word) (s : State), s.cfg = c →
      keypadRun w now s = .next (keypadAccept w code kb2 now s) := by
  by_cases hz : false ∈ w
  · by_cases hl : 8 ≤ w.length ∧ c.kpByte2Off + 8 ≤ w.length
    · obtain ⟨h8, hb⟩ := hl
      refine .inr ⟨BitVec.ofNat 8 (fieldAt w 0 8), BitVec.ofNat 8 (fieldAt w c.kpByte2Off 8), ?_⟩
      rintro now s rfl
      exact keypadRun_accept hz h8 hb now
    · exact .inl ⟨.indexOutOfRange, by decide, by rintro now s rfl; exact keypadRun_short hz hl now⟩
  · exact .inl ⟨.noise, by decide, fun now s _ => keypadRun_noise hz now s⟩

/-- A keypad row that rejects changes its return value and its status alone (R200, R201). -/
theorem KeypadRowEffect.of_rejected {w : Bits} {now : Word} {s t : State} (h : KeypadRowEffect w now s t)
    (ht : t.dstatK ∉ [DStat.ok, .nullCommand]) : t = { s with cmdOutK := 0, dstatK := t.dstatK } :=
  h.verdict.elim (fun ⟨_, hs⟩ => hs) fun ⟨hok, _⟩ => absurd hok ht

/-- What the row of a decoded keypad word leaves. -/
theorem exec_decodeKeypad_effect {w : Bits} {now : Word} {s t : State}
    (h : exec (decodeKeypad s.cfg w now) s = .next t) : KeypadRowEffect w now s t := by
  obtain ⟨t', hrow, effect⟩ := keypadRow_effect w now s
  rw [exec_decodeKeypad, ← keypadRow_eq, hrow] at h
  cases h
  exact effect

end Sys2Proof.Machine

open Sys2Proof Sys2Proof.Machine

/-- Settles O38: the range pre-check fails for one of the two bytes. -/
theorem shortKeypadWordsAreRejected : Obligations.ShortKeypadWordsAreRejected := by
  intro w now s hz hl
  rw [exec_decodeKeypad, keypadRun_short hz (by omega)]
  rfl

/-- Settles O39: the row is KeypadDecode of a word with command byte 0xff. -/
theorem buttonWordsAreDecoded : Obligations.ButtonWordsAreDecoded :=
  fun _ now _ _ haccepts hv => keypadRun_command ⟨haccepts, hv⟩ now

/-- Settles O40: each row is KeypadDecode of a word with its code, and one of the three label tests is on that code
itself. -/
theorem alarmWordsAreDecoded : Obligations.AlarmWordsAreDecoded := by
  intro tail now s v
  refine ⟨fun h => ?fire, fun h => ?aux, fun h => ?panic⟩
  case fire => exact (keypadRun_command h now).trans (by rw [if_pos (rfl : s.cfg.kpCodeFire = _)]; rfl)
  case aux => exact (keypadRun_command h now).trans (by rw [if_pos (rfl : s.cfg.kpCodeAux = _)]; rfl)
  case panic => exact (keypadRun_command h now).trans (by rw [if_pos (rfl : s.cfg.kpCodePanic = _)]; rfl)

/-- Settles O41: none of the conditions of R79 holds, in the decoder and in the row; the code is 0 as a byte where it is
0 as a field. -/
theorem otherKeypadWordsAreDecoded : Obligations.OtherKeypadWordsAreDecoded := by
  intro w now s v haccepts hv hother
  have ⟨hz, _, hb⟩ := haccepts
  refine ⟨decodeKeypad_other hz (by simpa only [keypadCodeIsOther, hv, decide_eq_true_eq] using hother) now, ?_⟩
  have hzero : BitVec.ofNat 8 v = 0 ↔ v = 0 := by
    obtain ⟨hrange, rfl⟩ := extract_eq_ok hv
    have := fieldAt_lt hrange
    bv_omega
  change keypadRun w now s = _
  rw [keypadRun_of_accepts haccepts hv (extract_of_inRange hb), keypadAccept_other hother]
  simp only [hzero]

/-- Settles O42: KeypadDecode gives the same verdict both times, and an accepted word's message is built from its two
bytes and the configuration. -/
theorem repeatedKeypadWordsAreReportedAgain : Obligations.RepeatedKeypadWordsAreReportedAgain := by
  intro w now now' s t h
  rw [exec_decodeKeypad] at h
  rcases keypadRun_verdict s.cfg w with ⟨why, hwhy, hreject⟩ | ⟨code, kb2, haccept⟩
  · cases (hreject now s rfl).symm.trans h
    have hdisjoint : ∀ d ∈ [DStat.noise, .indexOutOfRange], d ∉ [DStat.ok, .nullCommand] := by decide
    have hagain := exec_decodeKeypad w now' (clearEvents (reject .keypad why s))
    exact ⟨_, hagain.trans (hreject now' _ rfl), rfl, rfl, rfl, fun hok => absurd hok (hdisjoint why hwhy),
      fun _ => ⟨rfl, rfl⟩⟩
  · cases (haccept now s rfl).symm.trans h
    have hagain := exec_decodeKeypad w now' (clearEvents (keypadAccept w code kb2 now s))
    exact ⟨_, hagain.trans (haccept now' _ rfl), rfl, rfl, rfl, fun _ => ⟨rfl, KeypadEvent.noConfusion, rfl, rfl⟩,
      fun hn => absurd (keypadAccept_dstatK_mem ..) hn⟩

/-- Settles O43: the frame of a keypad row's effect, and of its rejection. -/
theorem keypadRowFrame : Obligations.KeypadRowFrame := by
  intro w now s t h
  have effect := exec_decodeKeypad_effect h
  refine ⟨effect.frame, fun hrejected => ?_⟩
  rw [effect.of_rejected (by rcases hrejected with hd | hd <;> rw [hd] <;> decide)]
  exact ⟨rfl, rfl, rfl⟩

end

/-! # Errors (R220 to R229): every instruction completes, and each role reports its own status codes -/

section

namespace Sys2Proof.Machine

/-- P_RAW completes whatever its code: its branch reads no field (R182). -/
theorem execPRaw_next (code : Byte) (tail : Bits) (now : Word) (s : State) :
    ∃ t, execPRaw code tail now s = .next t := by
  cases hg : panelGate code (byteBits code ++ tail) noFields s with
  | some why => exact ⟨_, panelRun_of_rejected hg⟩
  | none => exact ⟨_, panelRun_of_accepted hg rfl⟩

/-- A panel row reports no noise, and leaves the keypad role's status (R221). -/
theorem PanelRowEffect.keeps_statusesLegal {code : Byte} {w : Bits} {now : Word} {a : Bool} {s t : State}
    (h : PanelRowEffect code w now a s t) (hs : s.StatusesLegal) : t.StatusesLegal where
  panel := by
    have codes : ∀ d ∈ panelRejections ++ [DStat.ok, .unknownCommand], d ≠ .noise := by decide
    exact codes _ (List.mem_append.mpr (h.verdict.imp And.left And.left))
  keypad := by
    rw [h.frame]
    exact hs.keypad

/-- A keypad row reports no status that only the panel decoder gives, and leaves the panel role's status (R221). -/
theorem KeypadRowEffect.keeps_statusesLegal {w : Bits} {now : Word} {s t : State} (h : KeypadRowEffect w now s t)
    (hs : s.StatusesLegal) : t.StatusesLegal where
  panel := by
    rw [h.frame]
    exact hs.panel
  keypad := by
    have codes : ∀ d ∈ [DStat.noise, .indexOutOfRange] ++ [DStat.ok, .nullCommand],
        d ≠ .unknownCommand ∧ d ≠ .duplicate ∧ d ≠ .checksumMismatch := by decide
    exact codes _ (List.mem_append.mpr (h.verdict.imp And.left And.left))

/-- A POLL writes the statuses in its two rows only. -/
theorem execPoll_keeps_statusesLegal {a : Bool} {now : Word} {s t : State} (hs : s.StatusesLegal)
    (h : execPoll a now s = .next t) : t.StatusesLegal := by
  rcases execPoll_cases a now s with ⟨-, he⟩ | ⟨-, code, p, k, -, hp, hk, he⟩
  · cases he.symm.trans h
    exact { hs with }
  · cases he.symm.trans h
    have promoted : (clearEvents (promote .panel (beginPoll now s))).StatusesLegal := { hs with }
    exact { hk.keeps_statusesLegal (hp.keeps_statusesLegal promoted) with }

theorem statusesLegal_keptByTransactions : KeptByTransactions State.StatusesLegal where
  pending _ _ hs := { hs with }
  edge r d now s hs := ⟨by rw [edge_dstatP]; exact hs.panel, by rw [edge_dstatK]; exact hs.keypad⟩
  poll _ _ _ _ hs h := execPoll_keeps_statusesLegal hs h
  arm _ _ hs := { hs with }
  reset _ _ := ⟨nofun, nofun, nofun, nofun⟩

end Sys2Proof.Machine

open Sys2Proof Sys2Proof.Machine

/-- Settles O53: each row reports codes of its own role only, RESET reports none, and no other transaction writes a
status. -/
theorem statusCodesStayWithTheirRole : Obligations.StatusCodesStayWithTheirRole :=
  fun _ _ hs h => statusesLegal_keptByTransactions.step hs h

/-- Settles O54: a row is PanelDecode, P_RAW or KeypadDecode of a word, and each checks its fields before it reads them,
so no `extract` raises (log entry 15); of the transactions only POLL runs rows. -/
theorem everyInstructionCompletes : Obligations.EveryInstructionCompletes := by
  intro i s
  cases hk : transactionOf i with
  | none =>
    rcases exec_of_no_transaction hk s with ⟨code, tail, now, a, he⟩ | ⟨code, tail, now, rfl⟩ | ⟨w, now, he⟩
    · obtain ⟨t, ht, -⟩ := panelRow_effect code tail now a s
      exact ⟨t, he.trans ht⟩
    · exact execPRaw_next code tail now s
    · obtain ⟨t, ht, -⟩ := keypadRow_effect w now s
      exact ⟨t, he.trans ((keypadRow_eq w now s).symm.trans ht)⟩
  | some k =>
    rcases transactionOf_eq_some hk with ⟨-, r, d, now, he⟩ | ⟨-, a, now, rfl⟩ | ⟨-, v, rfl⟩ | ⟨-, rfl⟩
    · exact ⟨_, he s⟩
    · exact exec_decodeEvent_next (decodeEvent_pollWord a now) s
    · exact ⟨_, rfl⟩
    · exact ⟨_, rfl⟩

end

/-! # RESET and power-on (R250, R251) -/

section

namespace Sys2Proof.Machine

/-- RESET in every state (R250): the registers of R43 under the state's own configuration, with its later requests. -/
theorem exec_reset (s : State) : exec .reset s = .next { State.resetWith s.cfg with pending := s.pending } := rfl

/-- With no later request, RESET leaves the power-on state of its configuration (R251). -/
theorem exec_reset_of_idle {s : State} (h : s.pending = []) : exec .reset s = .next (State.resetWith s.cfg) := by
  rw [exec_reset, h]
  rfl

end Sys2Proof.Machine

open Sys2Proof Sys2Proof.Machine

/-- Settles O9: RESET answers R43's state field by field, its event word ignores bits 31..0, and under the configuration
of `State.reset`, with nothing pending, what it leaves is `State.reset`. -/
theorem resetRestoresEveryRegister : Obligations.ResetRestoresEveryRegister :=
  ⟨exec_reset, decodeEvent_reset, fun _ => exec_reset_of_idle rfl⟩

end
